-- ==== Sys2Proof/Word.lean ====
section
/-! DEFINITION. Word.lean: the one unit of every transfer, a byte (spec/00_scope.md R11; spec/20_memory.md R48), and
what the Transport may hand back when a primitive is called (spec/20_memory.md R40, R43, R59). -/

namespace Sys2Proof

/-- An 8-bit unsigned value, bit 0 the least significant (00 R11). Nothing in this hardware is signed (00 R12). -/
abbrev Byte := BitVec 8

/-- A protocol bit, 0 or 1 (40 R100): `true` is 1, the line released (30 R71). -/
abbrev ProtocolBit := Bool

/-- What the Transport answers when one primitive is called (20 R40, R43, R59). -/
inductive Answer where
  /-- The call returned. For `RxRead` the bytes are what it returned; `SetBaud` and `TxWrite` return no value
  (20 R41, R42), so for them the bytes are not looked at. -/
  | ret (bytes : List Byte)
  /-- The call reported that the Transport has failed (20 R59). -/
  | fail
deriving DecidableEq, Repr, Inhabited

end Sys2Proof
end

