-- ==== Sys2Proof/Config.lean ====
section
/-! DEFINITION. Config.lean: the parameters of the block (spec/00_scope.md R9) and the free values, which the spec
leaves to the environment (spec/93_implementation_defined.md U8, U12, U13). -/

namespace Sys2Proof.Config

/-- ONE_PATTERN, the write-one slot and the read slot: all eight data bit-times released, fixed (00 R9, 30 R72). -/
def onePattern : Byte := 0xFF

/-- The parameters that an implementation fixes (00 R9). They are the model's arguments: State carries them, no
operation changes them, and every statement about all states holds for every value of them. -/
structure Params where
  /-- ZERO_PATTERN, the write-zero slot; must differ from ONE_PATTERN (D2). -/
  zeroPattern  : Byte
  /-- RESET_PATTERN, the reset pulse and presence window; any byte (D3). -/
  resetPattern : Byte
  /-- NORMAL_BAUD, the `baud_rate` argument of `open` (D4). -/
  normalBaud   : Nat
  /-- RESET_BAUD, the slow rate of the reset character (D5). -/
  resetBaud    : Nat
  /-- READ_TIMEOUT, the `read_timeout` argument of `open`; never read by the block (D6, 20 R44). -/
  readTimeout  : Nat
  /-- HANDLE, the handle `open` returned; every primitive is addressed to it (10 R21). -/
  handle       : Nat
deriving DecidableEq, Repr

/-- The parameter constraints of 00 R9: ZERO_PATTERN differs from ONE_PATTERN and both rates are positive integers. -/
abbrev Params.Admissible (p : Params) : Prop :=
  p.zeroPattern ≠ onePattern ∧ 0 < p.normalBaud ∧ 0 < p.resetBaud

/-- The values State.reset takes. ZERO_PATTERN and RESET_PATTERN are the spec's defaults (00 R9; log entry 1).
NORMAL_BAUD is the spec's example (DESIGN CHOICE, log entry 2), RESET_BAUD the family's customary companion of it
(PRESUMED, log entry 3), READ_TIMEOUT and HANDLE are opaque (DESIGN CHOICE, log entry 4). -/
def Params.default : Params where
  zeroPattern  := 0x80
  resetPattern := 0xF0
  normalBaud   := 115200
  resetBaud    := 9600
  readTimeout  := 0
  handle       := 0

/-- FREE VALUE: the answer to the n-th primitive whose answer the environment's list does not give (20 R43, R45; U8,
U9, U12; log entry 5). No body: nothing can be proved of it. -/
opaque freeAnswer : Nat → Answer

/-- FREE VALUE: the number from which BAUD is made after a restoring SetBaud that failed (60 R157,
U13; log entry 8). No body. -/
opaque freeBaud : Nat → Nat

end Sys2Proof.Config
end

