-- ==== Sys2Proof/Syntax.lean ====
section
/-! DEFINITION. Syntax.lean: one constructor of Instr for each row of spec/opcode_table.json, and the encoded forms
the decoder reads (spec/30_encoding.md R70, R77, R80). -/

namespace Sys2Proof

/-- The three operations of the block, the values of PHASE other than IDLE (10 R28). -/
inductive Op where
  | reset | write | read
deriving DecidableEq, Repr

/-- What DECODE_SLOT returns (40 R101): the protocol bit of a well-formed slot, or the signal Malformed. -/
inductive SlotResult where
  | bit (v : ProtocolBit)
  | malformed
deriving DecidableEq, Repr

/-- The instructions: the rows of opcode_table.json, in the table's order. -/
inductive Instr where
  /-- RESET, format CMD: a 1-Wire bus reset with presence detect (41 R110). -/
  | reset
  /-- WRITE(data), format CMD: send the bytes of `data` (42 R121). -/
  | write (data : List Byte)
  /-- READ(count), format CMD: read `count` bytes (42 R125). -/
  | read (count : Nat)
  /-- CMD_RESERVED: the reserved command selector (30 R82). -/
  | cmdReserved
  /-- ENCODE_BIT(bit), format FUNC (40 R100). -/
  | encodeBit (bit : ProtocolBit)
  /-- DECODE_SLOT(e), format FUNC (40 R101). -/
  | decodeSlot (e : Byte)
  /-- SERIALIZE(b), format FUNC (42 R120). -/
  | serialize (b : Byte)
  /-- TXP_ONE: the pattern ONE_PATTERN is sent (30 R72). -/
  | txpOne
  /-- TXP_ZERO: the pattern ZERO_PATTERN is sent (30 R72). -/
  | txpZero
  /-- TXP_RESET: the pattern RESET_PATTERN is sent (30 R72). -/
  | txpReset
  /-- RXSLOT_BIT1, `1111iii1`: a well-formed slot with bit 1; `ign` is the field IGN (30 R73). -/
  | rxslotBit1 (ign : BitVec 3)
  /-- RXSLOT_BIT0, `1111iii0`: a well-formed slot with bit 0 (30 R73). -/
  | rxslotBit0 (ign : BitVec 3)
  /-- RXSLOT_BAD_7, `0rrriiis`: malformed, bit 7 low; `rest` is bits 6:0 (30 R73). -/
  | rxslotBad7 (rest : BitVec 7)
  /-- RXSLOT_BAD_6, `10rriiis`: malformed, bit 6 low; `rest` is bits 5:0 (30 R73). -/
  | rxslotBad6 (rest : BitVec 6)
  /-- RXSLOT_BAD_5, `110riiis`: malformed, bit 5 low; `rest` is bits 4:0 (30 R73). -/
  | rxslotBad5 (rest : BitVec 5)
  /-- RXSLOT_BAD_4, `1110iiis`: malformed, bit 4 low; `rest` is bits 3:0 (30 R73). -/
  | rxslotBad4 (rest : BitVec 4)
  /-- RXRST_NOPRESENCE: the echo of the reset equals RESET_PATTERN (30 R74, 41 R112). -/
  | rxrstNoPresence
  /-- RXRST_PRESENCE: the echo of the reset is `e`, any other byte (30 R74, 41 R113). -/
  | rxrstPresence (e : Byte)
deriving DecidableEq, Repr

/-- A command as the host presents it: the two-bit selector `op`, and beside it the operands `data` and `count`
(30 R77). An operand the selected command does not have is not looked at (log entry 10). -/
structure CmdWord where
  op    : BitVec 2
  data  : List Byte
  count : Nat
deriving DecidableEq, Repr

/-- An encoded item in its format (30 R70, R83): how a byte is read depends on the operation in flight. -/
inductive Code where
  /-- Format CMD. -/
  | cmd (w : CmdWord)
  /-- Format TXPAT: a byte the operation `sender` transmits. -/
  | txpat (sender : Op) (b : Byte)
  /-- Format RXSLOT: a byte received in a READ time slot. -/
  | rxslot (b : Byte)
  /-- Format RXRST: a byte received in RESET. -/
  | rxrst (b : Byte)
deriving DecidableEq, Repr

end Sys2Proof
end

