-- ==== Sys2Proof/Machine/Flags.lean ====
section
/-! DEFINITION. Machine/Flags.lean: every test the block makes on what it received. The block has no status flags
(spec/10_state.md R27); its tests are the slot check of DECODE_SLOT, the presence test of RESET and the comparison
of WRITE. Pure functions. -/

namespace Sys2Proof.Machine

/-- The field REL of a received slot byte, bits 7:4: the upper half, which must read released (30 R73). -/
def releasedField (e : Byte) : BitVec 4 := e.extractLsb' 4 4

/-- DECODE_SLOT: malformed exactly when REL is not all ones; otherwise the bit is bit 0 (40 R101). -/
def decodeSlot (e : Byte) : SlotResult :=
  if releasedField e = 0xF then .bit (e.getLsbD 0) else .malformed

/-- The condition for NoPresence: no byte came, or the byte equals RESET_PATTERN in all eight bits (41 R112). -/
def noPresence (p : Config.Params) (rx : List Byte) : Bool :=
  match rx with
  | [] => true
  | e :: _ => e == p.resetPattern

/-- The collision detector: the received sequence differs from the transmitted one, in length or in any byte
(42 R123, 00 R12). -/
def collision (tx rx : List Byte) : Bool := rx != tx

end Sys2Proof.Machine
end

