-- ==== Sys2Proof/Machine/Operands.lean ====
section
/-! DEFINITION. Machine/Operands.lean: taking protocol bytes apart into patterns and putting them together from bits
(spec/30_encoding.md R75, R79; spec/40_bitcodec.md R100; spec/42_byte_transceiver.md R120). Pure functions. -/

namespace Sys2Proof.Machine

/-- The bit positions of a ProtocolByte in the order of the bus, least significant first (20 R47). -/
def bitPositions : List (Fin 8) := [0, 1, 2, 3, 4, 5, 6, 7]

/-- The bit of `b` at position `i`, `(b >> i) & 1` (30 R79). -/
def bitOf (b : Byte) (i : Fin 8) : ProtocolBit := b.getLsbD i.val

/-- `ACC | (zext_8(v) << i)`: the decoded bit `v` put at position `i` (30 R79). -/
def placeBit (acc : Byte) (v : ProtocolBit) (i : Fin 8) : Byte :=
  acc ||| ((BitVec.ofBool v).setWidth 8 <<< i.val)

/-- ENCODE_BIT: the TimeSlotPattern that writes one protocol bit (40 R100). -/
def encodeBit (p : Config.Params) (bit : ProtocolBit) : Byte :=
  if bit then Config.onePattern else p.zeroPattern

/-- SERIALIZE: the eight patterns of one ProtocolByte, bit 0 first (42 R120). -/
def serialize (p : Config.Params) (b : Byte) : List Byte :=
  bitPositions.map fun i => encodeBit p (bitOf b i)

/-- FRAME: the transmit buffer of one WRITE, all eight slots of each byte in index order (30 R75, 20 R46). -/
def frame (p : Config.Params) (data : List Byte) : List Byte :=
  data.flatMap (serialize p)

/-- The bit position after `i`, none after position 7 (10 R26). -/
def nextBit (i : Fin 8) : Option (Fin 8) :=
  if h : i.val + 1 < 8 then some ⟨i.val + 1, h⟩ else none

end Sys2Proof.Machine
end

