-- ==== Sys2Proof/WellFormed.lean ====
section
/-! DEFINITION. WellFormed.lean: which terms of Instr stand for an encodable item. -/

namespace Sys2Proof

/-- The row RXRST_PRESENCE is every byte NOT matched by RXRST_NOPRESENCE (opcode_table.json, 30 R74): its operand
differs from RESET_PATTERN. Every other operand ranges over all values of its type: lengths and counts are
unbounded (D10), every bit and every byte is an input of the internal functions (40 R100, R101). -/
def wellFormed (p : Config.Params) : Instr → Bool
  | .reset => true
  | .write _ => true
  | .read _ => true
  | .cmdReserved => true
  | .encodeBit _ => true
  | .decodeSlot _ => true
  | .serialize _ => true
  | .txpOne => true
  | .txpZero => true
  | .txpReset => true
  | .rxslotBit1 _ => true
  | .rxslotBit0 _ => true
  | .rxslotBad7 _ => true
  | .rxslotBad6 _ => true
  | .rxslotBad5 _ => true
  | .rxslotBad4 _ => true
  | .rxrstNoPresence => true
  | .rxrstPresence e => e != p.resetPattern

end Sys2Proof
end

