-- ==== Sys2Proof/Decode.lean ====
section
/-! DEFINITION. Decode.lean: from an encoded item to its instruction, and back (spec/30_encoding.md R70 to R83,
spec/opcode_table.json). -/

namespace Sys2Proof

/-- Why an item has no instruction. -/
inductive DecodeError where
  /-- The byte is none of the patterns the operation `sender` transmits (30 R72, R82). -/
  | notTransmitted (sender : Op) (b : Byte)
deriving DecidableEq, Repr

/-- Format CMD: the selector chooses the command, its operand stands beside it (30 R77, R82). -/
def decodeCmd (w : CmdWord) : Instr :=
  if w.op = 0b00 then .reset
  else if w.op = 0b01 then .write w.data
  else if w.op = 0b10 then .read w.count
  else .cmdReserved

/-- Format TXPAT: the three patterns, each read by who sends it (the column "sent by" of 30 R72). -/
def decodeTxpat (p : Config.Params) (sender : Op) (b : Byte) : Except DecodeError Instr :=
  match sender with
  | .reset => if b = p.resetPattern then .ok .txpReset else .error (.notTransmitted .reset b)
  | .write =>
    if b = Config.onePattern then .ok .txpOne
    else if b = p.zeroPattern then .ok .txpZero
    else .error (.notTransmitted .write b)
  | .read => if b = Config.onePattern then .ok .txpOne else .error (.notTransmitted .read b)

/-- The RXSLOT row of the byte `e`, given what DECODE_SLOT said of it: a bit row, or the malformed row of the first
low bit of REL, from bit 7 down (30 R80, opcode_table.json). -/
def slotRow (r : SlotResult) (e : Byte) : Instr :=
  match r with
  | .bit true => .rxslotBit1 (e.extractLsb' 1 3)
  | .bit false => .rxslotBit0 (e.extractLsb' 1 3)
  | .malformed =>
    if e.getLsbD 7 = false then .rxslotBad7 (e.extractLsb' 0 7)
    else if e.getLsbD 6 = false then .rxslotBad6 (e.extractLsb' 0 6)
    else if e.getLsbD 5 = false then .rxslotBad5 (e.extractLsb' 0 5)
    else .rxslotBad4 (e.extractLsb' 0 4)

/-- Format RXSLOT: the six rows partition all 256 bytes (30 R81). -/
def decodeRxslot (e : Byte) : Instr := slotRow (Machine.decodeSlot e) e

/-- Format RXRST: the byte equal to RESET_PATTERN, and the default row for the 255 others (30 R74, R80). -/
def decodeRxrst (p : Config.Params) (e : Byte) : Instr :=
  if e = p.resetPattern then .rxrstNoPresence else .rxrstPresence e

/-- The decoder, total on every code; the one rejection is by name. -/
def decode (p : Config.Params) : Code → Except DecodeError Instr
  | .cmd w => .ok (decodeCmd w)
  | .txpat sender b => decodeTxpat p sender b
  | .rxslot b => .ok (decodeRxslot b)
  | .rxrst b => .ok (decodeRxrst p b)

/-- The byte of RXSLOT_BIT1, `1111iii1`. -/
def bit1Byte (ign : BitVec 3) : Byte := (0b1111#4 ++ ign) ++ 1#1

/-- The byte of RXSLOT_BIT0, `1111iii0`. -/
def bit0Byte (ign : BitVec 3) : Byte := (0b1111#4 ++ ign) ++ 0#1

/-- The byte of RXSLOT_BAD_7, `0rrriiis`. -/
def bad7Byte (rest : BitVec 7) : Byte := 0b0#1 ++ rest

/-- The byte of RXSLOT_BAD_6, `10rriiis`. -/
def bad6Byte (rest : BitVec 6) : Byte := 0b10#2 ++ rest

/-- The byte of RXSLOT_BAD_5, `110riiis`. -/
def bad5Byte (rest : BitVec 5) : Byte := 0b110#3 ++ rest

/-- The byte of RXSLOT_BAD_4, `1110iiis`. -/
def bad4Byte (rest : BitVec 4) : Byte := 0b1110#4 ++ rest

/-- The encoder, from the same tables. An internal function is selected by no bit pattern (30 R80), so it has no
code. TXP_ONE and TXP_ZERO are written as WRITE sends them; a READ sends TXP_ONE as the same byte. -/
def encode (p : Config.Params) : Instr → Option Code
  | .reset => some (.cmd ⟨0b00, [], 0⟩)
  | .write data => some (.cmd ⟨0b01, data, 0⟩)
  | .read count => some (.cmd ⟨0b10, [], count⟩)
  | .cmdReserved => some (.cmd ⟨0b11, [], 0⟩)
  | .encodeBit _ => none
  | .decodeSlot _ => none
  | .serialize _ => none
  | .txpOne => some (.txpat .write Config.onePattern)
  | .txpZero => some (.txpat .write p.zeroPattern)
  | .txpReset => some (.txpat .reset p.resetPattern)
  | .rxslotBit1 ign => some (.rxslot (bit1Byte ign))
  | .rxslotBit0 ign => some (.rxslot (bit0Byte ign))
  | .rxslotBad7 rest => some (.rxslot (bad7Byte rest))
  | .rxslotBad6 rest => some (.rxslot (bad6Byte rest))
  | .rxslotBad5 rest => some (.rxslot (bad5Byte rest))
  | .rxslotBad4 rest => some (.rxslot (bad4Byte rest))
  | .rxrstNoPresence => some (.rxrst p.resetPattern)
  | .rxrstPresence e => some (.rxrst e)

/-- A word of opcode_table.json read with nothing in flight to say its format: the FIRST row of the table, in the
table's order, that fits it (log entry 15). A selector is a word of two bits, so a byte fits a CMD row when its value
is below 4; the patterns are the default ones, which the table writes out; every other byte fits an RXSLOT row. An
operand beside the selector has no bits in the table: it is empty, or zero. -/
def tableCode (nbits w : Nat) : Option Code :=
  if 2 ≤ nbits ∧ nbits ≤ 8 ∧ w < 4 then some (.cmd ⟨BitVec.ofNat 2 w, [], 0⟩)
  else if nbits = 8 ∧ w < 256 then
    let b : Byte := BitVec.ofNat 8 w
    if b = Config.onePattern then some (.txpat .read b)
    else if b = Config.Params.default.zeroPattern then some (.txpat .write b)
    else if b = Config.Params.default.resetPattern then some (.txpat .reset b)
    else some (.rxslot b)
  else none

/-- The instruction the decoder reads from a word of the table. -/
def decodeTableWord (nbits w : Nat) : Option Instr :=
  match tableCode nbits w with
  | none => none
  | some c =>
    match decode Config.Params.default c with
    | .ok i => some i
    | .error _ => none

end Sys2Proof
end

