-- ==== Sys2Proof/Machine/State.lean ====
section
/-! DEFINITION. Machine/State.lean: everything the spec gives the block (spec/10_state.md R20 to R32), what the model
holds of the host and the environment, the reasons a step may stop, and the state after block initialisation. -/

namespace Sys2Proof.Machine

/-- The transient registers of 10 R23, and the register `callResult` of the model (log entry 13). -/
inductive Reg where
  | savedBaud | txBuf | rxBuf | data | count | byteIdx | bitIdx | acc | out | callResult
deriving DecidableEq, Repr

/-- Faults. Each is SAFE: the machine stops where no behaviour of the hardware is described. -/
inductive Fault where
  /-- Raised by a step that needs a transient register which holds no value (10 R24, U15: "a modelling error, not a
  behaviour of the hardware"). No step from a state that meets the invariant raises it. Safe. -/
  | noValue (r : Reg)
  /-- Raised by the fetch of a pattern byte that the operation in flight never transmits (30 R82). No step from a state
  that meets the invariant raises it. Safe. -/
  | notAPattern (e : DecodeError)
deriving DecidableEq, Repr

/-- Refusals. -/
inductive Refusal where
  /-- Raised by an arm of exec whose instruction has no meaning yet. Safe. -/
  | notModelled (mnemonic : String)
  /-- Raised by RESET, WRITE and READ presented while PHASE is not IDLE: "concurrent use is undefined" (43 R143, U1).
  The model lacks the runs a concurrent caller would produce, so this is UNSAFE (log entry 11). -/
  | commandInFlight
  /-- Raised by CMD_RESERVED: the reserved selector is refused, it starts nothing and changes nothing (30 R82, U14). Safe. -/
  | reservedSelector
  /-- Raised by a TXPAT, RXSLOT or RXRST row outside the step of the operation in flight that sends or examines that
  byte: no primitive other than those of the operation in flight (43 R143, U2). UNSAFE in the same way (log entry 11). -/
  | outOfSequence
deriving DecidableEq, Repr

/-- A call of a transport primitive, as the Transport's interface spells it (20 R40). -/
inductive Primitive where
  | setBaud (rate : Nat)
  | txWrite (buf : List Byte)
  | rxRead (n : Nat)
deriving DecidableEq, Repr

/-- One event of the trace (20 R51, R53), addressed to `handle` (10 R21). -/
inductive Event where
  /-- `set_baud_rate(handle, rate)` returned. -/
  | setBaud (handle rate : Nat)
  /-- `write(handle, buf)` returned. -/
  | txWrite (handle : Nat) (buf : List Byte)
  /-- `read(handle, n)` returned `answer`. -/
  | rxRead (handle n : Nat) (answer : List Byte)
  /-- The call reported that the Transport has failed (20 R59). -/
  | failed (handle : Nat) (call : Primitive)
deriving DecidableEq, Repr

/-- The error kinds, closed at three (60 R150). -/
inductive ErrorKind where
  | noPresence | symbolError | collision
deriving DecidableEq, Repr

/-- The diagnostic payload: the last buffer transmitted and the last answer received (60 R152). -/
structure Payload where
  expected : List Byte
  observed : List Byte
deriving DecidableEq, Repr

/-- The result of an operation (30 R78), and the outcome outside the taxonomy (60 R157). -/
inductive Result where
  /-- `Ok`: RESET and WRITE. -/
  | ok
  /-- `Ok(bytes)`: READ. -/
  | okBytes (bytes : List Byte)
  /-- `Err(kind, payload)`. -/
  | err (kind : ErrorKind) (payload : Payload)
  /-- TransportFault: never a success, and no run with one is at a proper end (43 R149; log entry 7). -/
  | transportFault
deriving DecidableEq, Repr

/-- What an internal function has returned (30 R80): ENCODE_BIT, SERIALIZE and DECODE_SLOT in that order. -/
inductive CallResult where
  | pattern (b : Byte)
  | patterns (bs : List Byte)
  | slot (r : SlotResult)
deriving DecidableEq, Repr

/-- The numbered steps of RESET (41 R110). -/
inductive ResetStep where
  /-- Step 1: save BAUD, switch to RESET_BAUD. -/
  | save
  /-- Step 2: write the reset pattern. -/
  | transmit
  /-- Step 3: read one byte. -/
  | receive
  /-- Step 4: restore the saved rate. -/
  | restore
  /-- Step 4 on the path of a Transport that has failed in step 1, 2 or 3 (41 R114, 60 R157). -/
  | restoreFailed
  /-- Step 5: compare, and deliver the result. -/
  | decide
deriving DecidableEq, Repr

/-- The steps of WRITE (42 R121). -/
inductive WriteStep where
  /-- The frame is emptied. -/
  | start
  /-- The loop over BYTEIDX and BITIDX that builds the frame. -/
  | build
  /-- `TxWrite` of the whole frame. -/
  | transmit
  /-- `RxRead` of as many bytes. -/
  | receive
  /-- The comparison. -/
  | compare
deriving DecidableEq, Repr

/-- The steps of READ (42 R125). -/
inductive ReadStep where
  /-- OUT is emptied. -/
  | start
  /-- The head of the loop over BYTEIDX: the next byte is begun, or the result delivered. -/
  | byte
  /-- A slot: the release pattern is encoded and transmitted. -/
  | transmit
  /-- A slot: one byte is read. -/
  | receive
  /-- A slot: the byte is decoded and acted on. -/
  | decode
deriving DecidableEq, Repr

/-- PHASE (10 R28) and the step number inside the operation's algorithm, which together with BYTEIDX and BITIDX are
the position of the sequencer (10 R26). -/
inductive Phase where
  | idle
  | reset (n : ResetStep)
  | write (n : WriteStep)
  | read (n : ReadStep)
deriving DecidableEq, Repr

/-- The register PHASE alone: which operation is in flight, none for IDLE (10 R23). -/
def Phase.op : Phase → Option Op
  | .idle => none
  | .reset _ => some .reset
  | .write _ => some .write
  | .read _ => some .read

end Sys2Proof.Machine

namespace Sys2Proof.Machine

structure State where
  /-- The parameters (00 R9), READ_TIMEOUT, HANDLE, ZERO_PATTERN, RESET_PATTERN and RESET_BAUD of 10 R28 among them. -/
  params     : Config.Params
  /-- BAUD (10 R20). -/
  baud       : Nat
  /-- PHASE with the step number (10 R26, R28). -/
  phase      : Phase
  /-- SAVED_BAUD (10 R23). -/
  savedBaud  : Option Nat
  /-- TXBUF (10 R23). -/
  txBuf      : Option (List Byte)
  /-- RXBUF (10 R23). -/
  rxBuf      : Option (List Byte)
  /-- DATA (10 R23). -/
  data       : Option (List Byte)
  /-- COUNT (10 R23). -/
  count      : Option Nat
  /-- BYTEIDX (10 R23). -/
  byteIdx    : Option Nat
  /-- BITIDX (10 R23). -/
  bitIdx     : Option (Fin 8)
  /-- ACC (10 R23). -/
  acc        : Option Byte
  /-- OUT (10 R23). -/
  out        : Option (List Byte)
  /-- What an internal function has returned and its caller not yet used (10 R27, 40 R102; log entry 13). -/
  callResult : Option CallResult
  /-- The host: the commands it has still to present, first one first (43 R142, R149; log entry 9). -/
  pending    : List CmdWord
  /-- The environment: its answers to the coming primitives, first one first (20 R43; log entry 5). -/
  env        : List Answer
  /-- How many free values have been drawn (log entry 5). -/
  draws      : Nat
  /-- The event trace, in order (20 R51, R53). -/
  trace      : List Event
  /-- The results delivered, in order (43 R144, R149). -/
  results    : List Result
deriving DecidableEq, Repr

/-- Block initialisation with the parameters `p`: one call of `open` (70 R180), and the state of 10 R32. Nothing is
transmitted; no transient register holds a value; the environment is unspecified. -/
def State.afterOpen (p : Config.Params) : State where
  params     := p
  baud       := p.normalBaud
  phase      := .idle
  savedBaud  := none
  txBuf      := none
  rxBuf      := none
  data       := none
  count      := none
  byteIdx    := none
  bitIdx     := none
  acc        := none
  out        := none
  callResult := none
  pending    := []
  env        := []
  draws      := 0
  trace      := []
  results    := []

/-- The machine right after block initialisation with the default parameters (log entries 1 to 4). -/
def State.reset : State := State.afterOpen Config.Params.default

end Sys2Proof.Machine
end

