-- ==== Sys2Proof/Machine/Ops.lean ====
section
/-! DEFINITION. Machine/Ops.lean: the named operations every meaning is built of: reading a transient register, the
three transport primitives (spec/20_memory.md R41 to R43, R59), delivering a result (spec/43_bus_facade.md R144) and
raising an error (spec/60_exceptions.md R155), and accepting a command (spec/43_bus_facade.md R141). -/

namespace Sys2Proof.Machine

/-- What one step answers. -/
abbrev StepOutcome := Host.Outcome State Fault Refusal

/-- The value of a transient register, or the fault that it holds none (10 R24, U15). -/
def need {α : Type} (x : Option α) (r : Reg) (k : α → StepOutcome) : StepOutcome :=
  match x with
  | some a => k a
  | none => .fault (.noValue r)

/-- The environment's answer to the next primitive (20 R43): the head of its list, or a free one. -/
def State.answer (s : State) : Answer :=
  match s.env with
  | a :: _ => a
  | [] => Config.freeAnswer s.draws

/-- The answer has been given. -/
def State.popAnswer (s : State) : State :=
  match s.env with
  | _ :: rest => { s with env := rest }
  | [] => { s with draws := s.draws + 1 }

/-- An event is recorded, in order (20 R51). -/
def State.record (s : State) (e : Event) : State := { s with trace := s.trace ++ [e] }

/-- BAUD holds the rate `r`. -/
def State.withBaud (s : State) (r : Nat) : State := { s with baud := r }

/-- BAUD is unspecified, after a restoring SetBaud that failed: a free positive integer (60 R157, U13; log entry 8). -/
def State.freeBaud (s : State) : State :=
  { s with baud := Config.freeBaud s.draws + 1, draws := s.draws + 1 }

/-- `SetBaud(r)` (20 R41): the call is addressed to HANDLE; BAUD is recorded when it returns. What BAUD holds when it fails
depends on which SetBaud of RESET it is (10 R22, 60 R157), so the caller says it in `failed`. -/
def setBaud (r : Nat) (returned failed : State → State) (s : State) : State :=
  match s.answer with
  | .ret _ => returned ((s.popAnswer.record (.setBaud s.params.handle r)).withBaud r)
  | .fail => failed (s.popAnswer.record (.failed s.params.handle (.setBaud r)))

/-- `TxWrite(buf)` (20 R42): one call for the whole of `buf`. -/
def txWrite (buf : List Byte) (returned failed : State → State) (s : State) : State :=
  match s.answer with
  | .ret _ => returned (s.popAnswer.record (.txWrite s.params.handle buf))
  | .fail => failed (s.popAnswer.record (.failed s.params.handle (.txWrite buf)))

/-- `RxRead(n)` (20 R43): at most `n` bytes, chosen by the environment; bytes beyond `n` are not returned (log
entry 6). -/
def rxRead (n : Nat) (returned : List Byte → State → State) (failed : State → State) (s : State) : State :=
  match s.answer with
  | .ret bs => returned (bs.take n) (s.popAnswer.record (.rxRead s.params.handle n (bs.take n)))
  | .fail => failed (s.popAnswer.record (.failed s.params.handle (.rxRead n)))

/-- The position of the sequencer moves to `ph`. -/
def State.goto (s : State) (ph : Phase) : State := { s with phase := ph }

/-- No transient register holds a value (10 R24). -/
def State.clearTransients (s : State) : State :=
  { s with savedBaud := none, txBuf := none, rxBuf := none, data := none, count := none, byteIdx := none,
           bitIdx := none, acc := none, out := none, callResult := none }

/-- The operation ends: its one result goes to the caller, the transient registers are given up and PHASE is IDLE
(43 R144, 10 R24). -/
def deliver (r : Result) (s : State) : State :=
  { s.clearTransients.goto .idle with results := s.results ++ [r] }

/-- TransportFault: the failure is passed on to the caller and the operation is over (60 R157). -/
def deliverTransportFault (s : State) : State := deliver .transportFault s

/-- The restoring SetBaud itself has failed: the failure is passed on and BAUD is unspecified, the only case in which BAUD
is not what it was at acceptance (60 R157, 10 R22). -/
def restoreFails (s : State) : State := deliverTransportFault s.freeBaud

/-- TAKING AN ERROR, the block's one exception entry (60 R155): no further primitive, the payload formed from TXBUF and
RXBUF (60 R152), everything else discarded, `Err(kind, payload)` delivered. There is no return operation beside it: the
block is idle and accepts any command (60 R158). -/
def raise (kind : ErrorKind) (s : State) : StepOutcome :=
  need s.txBuf .txBuf fun tx =>
  need s.rxBuf .rxBuf fun rx =>
  .next (deliver (.err kind ⟨tx, rx⟩) s)

/-- Acceptance of a command (43 R141): only when PHASE is IDLE; otherwise no behaviour is given (43 R143). -/
def accept (capture : State → State) (s : State) : StepOutcome :=
  match s.phase with
  | .idle => .next (capture s)
  | _ => .refused .commandInFlight

/-- The numeric code of a result (60 R151); TransportFault is outside the taxonomy and has none. -/
def resultCode : Result → Option Nat
  | .ok => some 0
  | .okBytes _ => some 0
  | .err .noPresence _ => some 1
  | .err .symbolError _ => some 2
  | .err .collision _ => some 3
  | .transportFault => none

end Sys2Proof.Machine
end

