-- ==== Sys2Proof/Machine/BitCodec.lean ====
section
/-! DEFINITION. Machine/BitCodec.lean: the internal functions, format FUNC (spec/40_bitcodec.md R100 to R102,
spec/42_byte_transceiver.md R120). They read no state, write no state and raise nothing: each only hands its value to
its caller, in `callResult` (log entry 13). -/

namespace Sys2Proof.Machine

/-- An internal function returns `r` to its caller. -/
def State.returns (s : State) (r : CallResult) : State := { s with callResult := some r }

/-- ENCODE_BIT(bit) (40 R100). -/
def execEncodeBit (bit : ProtocolBit) (s : State) : StepOutcome :=
  .next (s.returns (.pattern (encodeBit s.params bit)))

/-- DECODE_SLOT(e) (40 R101). -/
def execDecodeSlot (e : Byte) (s : State) : StepOutcome :=
  .next (s.returns (.slot (decodeSlot e)))

/-- SERIALIZE(b) (42 R120). -/
def execSerialize (b : Byte) (s : State) : StepOutcome :=
  .next (s.returns (.patterns (serialize s.params b)))

end Sys2Proof.Machine
end

