-- ==== Sys2Proof/Machine/Facade.lean ====
section
/-! DEFINITION. Machine/Facade.lean: the commands of format CMD (spec/43_bus_facade.md R141, R143, R146). A command is
accepted in one step; the steps of its operation follow (Machine/Sequencer.lean; log entry 12). -/

namespace Sys2Proof.Machine

/-- RESET is accepted: PHASE is RESET, no operand; the next step is step 1 of 41 R110. -/
def execReset (s : State) : StepOutcome :=
  accept (fun s => s.goto (.reset .save)) s

/-- WRITE(data) is accepted: PHASE is WRITE, `data` is captured as DATA (43 R141); 42 R121 follows. -/
def execWrite (data : List Byte) (s : State) : StepOutcome :=
  accept (fun s => { s.goto (.write .start) with data := some data }) s

/-- READ(count) is accepted: PHASE is READ, `count` is captured as COUNT (43 R141); 42 R125 follows. -/
def execRead (count : Nat) (s : State) : StepOutcome :=
  accept (fun s => { s.goto (.read .start) with count := some count }) s

/-- The reserved selector "is refused, it starts no operation, issues no transport primitive and changes no state"
(30 R82). -/
def execCmdReserved (_s : State) : StepOutcome := .refused .reservedSelector

end Sys2Proof.Machine
end

