-- ==== Sys2Proof/Machine/Patterns.lean ====
section
/-! DEFINITION. Machine/Patterns.lean: the rows of format TXPAT (spec/30_encoding.md R72): a pattern byte is put into
TXBUF by the operation in flight, which transmits it (RESET, READ) or adds it to its frame (WRITE). -/

namespace Sys2Proof.Machine

/-- The sequencer of WRITE moves to the next bit position; after position 7 to the next byte, whose patterns are then
to be asked for (10 R26). -/
def State.nextFrameBit (s : State) (k : Nat) (i : Fin 8) : State :=
  match nextBit i with
  | some j => { s with bitIdx := some j }
  | none => { s with byteIdx := some (k + 1), bitIdx := some 0, callResult := none }

/-- WRITE: the pattern `b`, the one SERIALIZE returned for this bit position, is added to the frame (42 R121, 30 R75). -/
def appendPattern (b : Byte) (s : State) : StepOutcome :=
  need s.txBuf .txBuf fun tx =>
  need s.byteIdx .byteIdx fun k =>
  need s.bitIdx .bitIdx fun i =>
  match s.callResult with
  | some (.patterns bs) =>
    if bs[i.val]? = some b then .next ({ s with txBuf := some (tx ++ [b]) }.nextFrameBit k i)
    else .refused .outOfSequence
  | _ => .refused .outOfSequence

/-- READ: the release pattern, the one ENCODE_BIT(1) returned, is TXBUF and is transmitted: a read slot (42 R125). -/
def transmitSlot (s : State) : StepOutcome :=
  match s.callResult with
  | some (.pattern b) =>
    if b = Config.onePattern then
      .next (txWrite [b] (fun s => s.goto (.read .receive)) deliverTransportFault
        { s with txBuf := some [b], callResult := none })
    else .refused .outOfSequence
  | _ => .refused .outOfSequence

/-- TXP_ONE: sent by WRITE for a bit 1 and by READ in every slot (30 R72). -/
def execTxpOne (s : State) : StepOutcome :=
  match s.phase with
  | .write .build => appendPattern Config.onePattern s
  | .read .transmit => transmitSlot s
  | _ => .refused .outOfSequence

/-- TXP_ZERO: sent by WRITE for a bit 0, and by nothing else (30 R72, 42 R128). -/
def execTxpZero (s : State) : StepOutcome :=
  match s.phase with
  | .write .build => appendPattern s.params.zeroPattern s
  | _ => .refused .outOfSequence

/-- TXP_RESET: step 2 of RESET, "Write the single ResetPattern byte" (41 R110). When the Transport fails, the saved rate
is still to be restored (60 R157). -/
def execTxpReset (s : State) : StepOutcome :=
  match s.phase with
  | .reset .transmit =>
    .next (txWrite [s.params.resetPattern] (fun s => s.goto (.reset .receive))
      (fun s => s.goto (.reset .restoreFailed)) { s with txBuf := some [s.params.resetPattern] })
  | _ => .refused .outOfSequence

end Sys2Proof.Machine
end

