-- ==== Sys2Proof/Machine/Presence.lean ====
section
/-! DEFINITION. Machine/Presence.lean: the rows of format RXRST (spec/30_encoding.md R74): step 5 of RESET on the byte
received (spec/41_reset_sequencer.md R110, R112, R113). -/

namespace Sys2Proof.Machine

/-- Step 5 of RESET on the received byte `e`: no presence when it equals RESET_PATTERN, success on any difference. -/
def resetVerdict (e : Byte) (s : State) : StepOutcome :=
  if s.phase == .reset .decide && (s.rxBuf.bind List.head?) == some e then
    if noPresence s.params [e] then raise .noPresence s else .next (deliver .ok s)
  else .refused .outOfSequence

/-- RXRST_NOPRESENCE: the echo is RESET_PATTERN. -/
def execRxrstNoPresence (s : State) : StepOutcome := resetVerdict s.params.resetPattern s

/-- RXRST_PRESENCE: the echo is the byte `e`. -/
def execRxrstPresence (e : Byte) (s : State) : StepOutcome := resetVerdict e s

end Sys2Proof.Machine
end

