-- ==== Sys2Proof/Machine/ReadSlot.lean ====
section
/-! DEFINITION. Machine/ReadSlot.lean: the rows of format RXSLOT (spec/30_encoding.md R73, R81): READ acts on the byte
received in a time slot, which DECODE_SLOT has classified (spec/42_byte_transceiver.md R125 to R127). -/

namespace Sys2Proof.Machine

/-- READ is at the step that acts on the received byte, that byte is `e`, and DECODE_SLOT has said `r` of it. -/
def slotReady (e : Byte) (r : SlotResult) (s : State) : Bool :=
  s.phase == .read .decode && (s.rxBuf.bind List.head?) == some e && s.callResult == some (.slot r)

/-- The decoded bit goes to ACC at BITIDX; after bit 7 the byte is appended to OUT and BYTEIDX moves on (42 R125,
30 R79, 10 R26). -/
def acceptBit (v : ProtocolBit) (s : State) : StepOutcome :=
  need s.acc .acc fun a =>
  need s.bitIdx .bitIdx fun i =>
  need s.byteIdx .byteIdx fun k =>
  need s.out .out fun o =>
  match nextBit i with
  | some j =>
    .next { s.goto (.read .transmit) with acc := some (placeBit a v i), bitIdx := some j, callResult := none }
  | none =>
    .next { s.goto (.read .byte) with
      acc := some (placeBit a v i), out := some (o ++ [placeBit a v i]), byteIdx := some (k + 1), callResult := none }

/-- A slot whose byte decodes to the bit `v`. -/
def slotBit (e : Byte) (v : ProtocolBit) (s : State) : StepOutcome :=
  if slotReady e (.bit v) s then acceptBit v s else .refused .outOfSequence

/-- A malformed slot: READ ends at once with SymbolError (42 R126, R127). -/
def slotBad (e : Byte) (s : State) : StepOutcome :=
  if slotReady e .malformed s then raise .symbolError s else .refused .outOfSequence

/-- RXSLOT_BIT1. -/
def execRxslotBit1 (ign : BitVec 3) (s : State) : StepOutcome := slotBit (bit1Byte ign) true s

/-- RXSLOT_BIT0. -/
def execRxslotBit0 (ign : BitVec 3) (s : State) : StepOutcome := slotBit (bit0Byte ign) false s

/-- RXSLOT_BAD_7: bit 7 low. -/
def execRxslotBad7 (rest : BitVec 7) (s : State) : StepOutcome := slotBad (bad7Byte rest) s

/-- RXSLOT_BAD_6: bit 7 high, bit 6 low. -/
def execRxslotBad6 (rest : BitVec 6) (s : State) : StepOutcome := slotBad (bad6Byte rest) s

/-- RXSLOT_BAD_5: bits 7:6 high, bit 5 low. -/
def execRxslotBad5 (rest : BitVec 5) (s : State) : StepOutcome := slotBad (bad5Byte rest) s

/-- RXSLOT_BAD_4: bits 7:5 high, bit 4 low. -/
def execRxslotBad4 (rest : BitVec 4) (s : State) : StepOutcome := slotBad (bad4Byte rest) s

end Sys2Proof.Machine
end

