-- ==== Sys2Proof/Machine/Dispatch.lean ====
section
/-! DEFINITION. Machine/Dispatch.lean: the meaning of each instruction, one arm for each row of opcode_table.json. -/

namespace Sys2Proof.Machine

def exec (i : Instr) (s : State) : Host.Outcome State Fault Refusal :=
  match i with
  -- format CMD
  | .reset => Sys2Proof.Machine.execReset s
  | .write data => Sys2Proof.Machine.execWrite data s
  | .read count => Sys2Proof.Machine.execRead count s
  | .cmdReserved => Sys2Proof.Machine.execCmdReserved s
  -- format FUNC
  | .encodeBit bit => Sys2Proof.Machine.execEncodeBit bit s
  | .decodeSlot e => Sys2Proof.Machine.execDecodeSlot e s
  | .serialize b => Sys2Proof.Machine.execSerialize b s
  -- format TXPAT
  | .txpOne => Sys2Proof.Machine.execTxpOne s
  | .txpZero => Sys2Proof.Machine.execTxpZero s
  | .txpReset => Sys2Proof.Machine.execTxpReset s
  -- format RXSLOT
  | .rxslotBit1 ign => Sys2Proof.Machine.execRxslotBit1 ign s
  | .rxslotBit0 ign => Sys2Proof.Machine.execRxslotBit0 ign s
  | .rxslotBad7 rest => Sys2Proof.Machine.execRxslotBad7 rest s
  | .rxslotBad6 rest => Sys2Proof.Machine.execRxslotBad6 rest s
  | .rxslotBad5 rest => Sys2Proof.Machine.execRxslotBad5 rest s
  | .rxslotBad4 rest => Sys2Proof.Machine.execRxslotBad4 rest s
  -- format RXRST
  | .rxrstNoPresence => Sys2Proof.Machine.execRxrstNoPresence s
  | .rxrstPresence e => Sys2Proof.Machine.execRxrstPresence e s

end Sys2Proof.Machine
end

