-- ==== Sys2Proof/Machine/Placing.lean ====
section
/-! DEFINITION. Machine/Placing.lean: the state in which a given code is the next one fetched (log entry 15). A code of
format TXPAT, RXSLOT or RXRST is fetched only by an operation in flight, so placing one sets that operation at the step
which sends or examines it, with the registers as they stand there. -/

namespace Sys2Proof.Machine

/-- The command `w` is the next one the host presents, and the block is idle. -/
def State.placeCmd (s : State) (w : CmdWord) : State :=
  { s.clearTransients.goto .idle with pending := w :: s.pending }

/-- A RESET in flight, at step 2. -/
def State.placeResetTransmit (s : State) : State :=
  { s.clearTransients.goto (.reset .transmit) with savedBaud := some s.baud, baud := s.params.resetBaud }

/-- A RESET in flight, at step 5 with the echo `e`. -/
def State.placeEcho (s : State) (e : Byte) : State :=
  { s.clearTransients.goto (.reset .decide) with
    savedBaud := some s.baud, txBuf := some [s.params.resetPattern], rxBuf := some [e] }

/-- A WRITE of the one byte `b` in flight, about to add the pattern of bit 0 to its frame. -/
def State.placeFrameBit (s : State) (b : Byte) : State :=
  { s.clearTransients.goto (.write .build) with
    data := some [b], txBuf := some [], byteIdx := some 0, bitIdx := some 0,
    callResult := some (.patterns (serialize s.params b)) }

/-- A READ of one byte in flight, about to transmit its first slot. -/
def State.placeSlotTransmit (s : State) : State :=
  { s.clearTransients.goto (.read .transmit) with
    count := some 1, byteIdx := some 0, bitIdx := some 0, acc := some 0, out := some [],
    callResult := some (.pattern Config.onePattern) }

/-- A READ of one byte in flight, about to act on the byte `e` received in its first slot. -/
def State.placeSlot (s : State) (e : Byte) : State :=
  { s.clearTransients.goto (.read .decode) with
    count := some 1, byteIdx := some 0, bitIdx := some 0, acc := some 0, out := some [],
    txBuf := some [Config.onePattern], rxBuf := some [e], callResult := some (.slot (decodeSlot e)) }

/-- The code `c` is the next one fetched. Of the patterns WRITE sends, ONE_PATTERN is bit 0 of the byte 0xFF and any
other one that of the byte 0x00. -/
def State.placeCode (s : State) (c : Code) : State :=
  match c with
  | .cmd w => s.placeCmd w
  | .txpat .reset _ => s.placeResetTransmit
  | .txpat .write b => if b = Config.onePattern then s.placeFrameBit 0xFF else s.placeFrameBit 0x00
  | .txpat .read _ => s.placeSlotTransmit
  | .rxslot e => s.placeSlot e
  | .rxrst e => s.placeEcho e

end Sys2Proof.Machine
end

