-- ==== Sys2Proof/Machine/Sequencer.lean ====
section
/-! DEFINITION. Machine/Sequencer.lean: which instruction, or which step without a row, the sequencer performs next
(spec/10_state.md R26), and the steps without a row: those of RESET (spec/41_reset_sequencer.md R110), of WRITE
(spec/42_byte_transceiver.md R121) and of READ (spec/42_byte_transceiver.md R125). -/

namespace Sys2Proof.Machine

/-- The steps that no row of opcode_table.json names. -/
inductive Micro where
  /-- IDLE, and the host presents no command. -/
  | wait
  /-- RESET step 1. -/
  | saveBaud
  /-- RESET step 3. -/
  | receiveEcho
  /-- RESET step 4. -/
  | restoreBaud
  /-- RESET step 4 after a failure of the Transport. -/
  | restoreAfterFailure
  /-- RESET step 5 when no byte came. -/
  | noEcho
  /-- WRITE: TXBUF is emptied. -/
  | startFrame
  /-- WRITE: the frame is complete. -/
  | endFrame
  /-- WRITE: the frame is transmitted. -/
  | sendFrame
  /-- WRITE: as many bytes are read. -/
  | receiveFrame
  /-- WRITE: the two buffers are compared. -/
  | compareFrame
  /-- READ: OUT is emptied. -/
  | startRead
  /-- READ: the next byte is begun, or the result delivered. -/
  | nextByte
  /-- READ: one byte is read in a slot. -/
  | receiveSlot
  /-- READ: no byte came in a slot. -/
  | noSlotAnswer
deriving DecidableEq, Repr

/-- What the sequencer does next. -/
inductive Fetched where
  /-- It runs an instruction. -/
  | instr (i : Instr)
  /-- It performs a step without a row. -/
  | micro (m : Micro)
  /-- It cannot go on. -/
  | stop (f : Fault)
deriving DecidableEq, Repr

/-- A byte the operation `sender` is to transmit is read in format TXPAT. -/
def fetchPattern (p : Config.Params) (sender : Op) (b : Byte) : Fetched :=
  match decodeTxpat p sender b with
  | .ok i => .instr i
  | .error e => .stop (.notAPattern e)

/-- WRITE, building the frame: SERIALIZE is called for the byte at BYTEIDX, then its patterns are taken one by one at
BITIDX; past the last byte the frame is complete (42 R121). -/
def fetchBuild (s : State) : Fetched :=
  match s.data, s.byteIdx, s.bitIdx with
  | none, _, _ => .stop (.noValue .data)
  | _, none, _ => .stop (.noValue .byteIdx)
  | _, _, none => .stop (.noValue .bitIdx)
  | some d, some k, some i =>
    match d[k]? with
    | none => .micro .endFrame
    | some b =>
      match s.callResult with
      | some (.patterns bs) =>
        match bs[i.val]? with
        | some w => fetchPattern s.params .write w
        | none => .stop (.noValue .callResult)
      | _ => .instr (.serialize b)

/-- READ, the step that acts on the received byte: DECODE_SLOT is called on it, then its row is run; an empty answer
has no byte to decode (42 R125). -/
def fetchSlot (s : State) : Fetched :=
  match s.rxBuf with
  | none => .stop (.noValue .rxBuf)
  | some [] => .micro .noSlotAnswer
  | some (e :: _) =>
    match s.callResult with
    | some (.slot r) => .instr (slotRow r e)
    | _ => .instr (.decodeSlot e)

/-- RESET step 5: the received byte is read in format RXRST; an empty answer has no byte (41 R112). -/
def fetchEcho (s : State) : Fetched :=
  match s.rxBuf with
  | none => .stop (.noValue .rxBuf)
  | some [] => .micro .noEcho
  | some (e :: _) => .instr (decodeRxrst s.params e)

/-- The position of the sequencer says what is next (10 R26); at IDLE it is the host's next command (43 R140). -/
def fetch (s : State) : Fetched :=
  match s.phase with
  | .idle =>
    match s.pending with
    | [] => .micro .wait
    | w :: _ => .instr (decodeCmd w)
  | .reset .save => .micro .saveBaud
  | .reset .transmit => fetchPattern s.params .reset s.params.resetPattern
  | .reset .receive => .micro .receiveEcho
  | .reset .restore => .micro .restoreBaud
  | .reset .restoreFailed => .micro .restoreAfterFailure
  | .reset .decide => fetchEcho s
  | .write .start => .micro .startFrame
  | .write .build => fetchBuild s
  | .write .transmit => .micro .sendFrame
  | .write .receive => .micro .receiveFrame
  | .write .compare => .micro .compareFrame
  | .read .start => .micro .startRead
  | .read .byte => .micro .nextByte
  | .read .transmit =>
    match s.callResult with
    | some (.pattern b) => fetchPattern s.params .read b
    | _ => .instr (.encodeBit true)
  | .read .receive => .micro .receiveSlot
  | .read .decode => fetchSlot s

/-- At IDLE the command that is fetched is the host's no longer; in flight the host presents nothing (43 R142). -/
def State.afterFetch (s : State) : State :=
  match s.phase with
  | .idle => { s with pending := s.pending.tail }
  | _ => s

/-- Step 1 of RESET: "Save current baud rate; switch transport to the slow reset baud rate". When that SetBaud fails,
the restoring one is still attempted (60 R157), and until then BAUD holds RESET_BAUD all the same: between the two
SetBaud it does "whatever its result" (10 R22), which only a failed restoring SetBaud can break (60 R157). -/
def saveBaud (s : State) : StepOutcome :=
  .next (setBaud s.params.resetBaud (fun s => s.goto (.reset .transmit))
    (fun s => (s.withBaud s.params.resetBaud).goto (.reset .restoreFailed)) { s with savedBaud := some s.baud })

/-- Step 3 of RESET: "Read exactly one byte back". -/
def receiveEcho (s : State) : StepOutcome :=
  .next (rxRead 1 (fun rx s => { s.goto (.reset .restore) with rxBuf := some rx })
    (fun s => s.goto (.reset .restoreFailed)) s)

/-- Step 4 of RESET: "Restore the saved baud rate unconditionally". -/
def restoreBaud (s : State) : StepOutcome :=
  need s.savedBaud .savedBaud fun b =>
  .next (setBaud b (fun s => s.goto (.reset .decide)) restoreFails s)

/-- Step 4 of RESET after a failure: the rate is restored, then the failure is passed on (60 R157). -/
def restoreAfterFailure (s : State) : StepOutcome :=
  need s.savedBaud .savedBaud fun b =>
  .next (setBaud b deliverTransportFault restoreFails s)

/-- WRITE: `TXBUF <- []`, and the loop begins at byte 0, bit 0. -/
def startFrame (s : State) : StepOutcome :=
  .next { s.goto (.write .build) with txBuf := some [], byteIdx := some 0, bitIdx := some 0 }

/-- WRITE: an empty frame is a success with no primitive at all (42 R124 (a), D9); another one is transmitted. -/
def endFrame (s : State) : StepOutcome :=
  need s.txBuf .txBuf fun tx =>
  .next (if tx.isEmpty then deliver .ok s else s.goto (.write .transmit))

/-- WRITE: the whole frame in one TxWrite. -/
def sendFrame (s : State) : StepOutcome :=
  need s.txBuf .txBuf fun tx =>
  .next (txWrite tx (fun s => s.goto (.write .receive)) deliverTransportFault s)

/-- WRITE: one RxRead for the same number of bytes. -/
def receiveFrame (s : State) : StepOutcome :=
  need s.txBuf .txBuf fun tx =>
  .next (rxRead tx.length (fun rx s => { s.goto (.write .compare) with rxBuf := some rx }) deliverTransportFault s)

/-- WRITE: any mismatch is a Collision (42 R123). -/
def compareFrame (s : State) : StepOutcome :=
  need s.txBuf .txBuf fun tx =>
  need s.rxBuf .rxBuf fun rx =>
  if collision tx rx then raise .collision s else .next (deliver .ok s)

/-- READ: `OUT <- []`, and the loop begins at byte 0. -/
def startRead (s : State) : StepOutcome :=
  .next { s.goto (.read .byte) with out := some [], byteIdx := some 0 }

/-- READ: `ACC <- 0x00` and the first bit of the next byte; after the last byte `Ok(OUT)` (42 R125). -/
def nextByte (s : State) : StepOutcome :=
  need s.count .count fun n =>
  need s.byteIdx .byteIdx fun k =>
  need s.out .out fun o =>
  .next (if k < n then { s.goto (.read .transmit) with acc := some 0, bitIdx := some 0 }
         else deliver (.okBytes o) s)

/-- READ: one RxRead for one byte. -/
def receiveSlot (s : State) : StepOutcome :=
  .next (rxRead 1 (fun rx s => { s.goto (.read .decode) with rxBuf := some rx }) deliverTransportFault s)

/-- A step without a row. -/
def runMicro (m : Micro) (s : State) : StepOutcome :=
  match m with
  | .wait => .next s
  | .saveBaud => saveBaud s
  | .receiveEcho => receiveEcho s
  | .restoreBaud => restoreBaud s
  | .restoreAfterFailure => restoreAfterFailure s
  | .noEcho => raise .noPresence s
  | .startFrame => startFrame s
  | .endFrame => endFrame s
  | .sendFrame => sendFrame s
  | .receiveFrame => receiveFrame s
  | .compareFrame => compareFrame s
  | .startRead => startRead s
  | .nextByte => nextByte s
  | .receiveSlot => receiveSlot s
  | .noSlotAnswer => raise .symbolError s

end Sys2Proof.Machine
end

