-- ==== Sys2Proof/Machine/Step.lean ====
section
/-! DEFINITION. Machine/Step.lean: one step of the machine, and where an instruction is placed so that the very next
step runs it. -/

namespace Sys2Proof.Machine

/-- One step: the instruction the sequencer fetches, or its step without a row. -/
def step (s : State) : Host.Outcome State Fault Refusal :=
  match fetch s with
  | .instr i => exec i s.afterFetch
  | .micro m => runMicro m s
  | .stop f => .fault f

/-- The code `c` placed where the next step fetches it: a command is the host's next one; a pattern or a received byte
is at the step, of an operation in flight, that sends or examines it (Machine/Placing.lean). -/
def State.withFetchWord (s : State) (nbits w : Nat) : State :=
  match tableCode nbits w with
  | none => s
  | some c => s.placeCode c

end Sys2Proof.Machine
end

