-- ==== Sys2Proof/Safety.lean ====
section
/-! DEFINITION. Safety.lean: the terms in which claims about the machine are made: the idle block, a proper start and a
proper end of a run (spec/43_bus_facade.md R149), the invariant, the environments a claim may take as a premise
(spec/20_memory.md R45), and the bits of a byte put together (spec/30_encoding.md R79). -/

namespace Sys2Proof.Machine

/-- The block is idle and no transient register holds a value (10 R24, R32). -/
abbrev Quiet (s : State) : Prop := s.phase = .idle ∧ s.clearTransients = s

/-- The premises at the start of a run (43 R149). -/
abbrev ProperStart (s : State) : Prop := Quiet s ∧ 0 < s.baud ∧ Result.transportFault ∉ s.results

/-- The end of a run: the last command's result is delivered, PHASE is IDLE, and no TransportFault occurred (43 R149). -/
abbrev ProperEnd (s : State) : Prop := Quiet s ∧ s.pending = [] ∧ Result.transportFault ∉ s.results

/-- `s` runs `k` steps to `t`. -/
def Runs (k : Nat) (s t : State) : Prop := (Host.Core.run Sys2Proof.core k s : StepOutcome) = .next t

/-- The handle a call was addressed to (10 R21). -/
def Event.handle : Event → Nat
  | .setBaud h _ => h
  | .txWrite h _ => h
  | .rxRead h _ _ => h
  | .failed h _ => h

/-- How many steps the operation in flight can still take at most (43 R147; 41 R111, 42 R122, R128). -/
def stepBound (s : State) : Nat :=
  match s.phase.op with
  | none => 0
  | some .reset => 6
  | some .write => 9 * (s.data.getD []).length + 6
  | some .read => 41 * s.count.getD 0 + 3

/-! ## The invariant -/

/-- The registers that only WRITE and READ use hold no value. -/
def NoWriteReadRegs (s : State) : Prop :=
  s.data = none ∧ s.count = none ∧ s.byteIdx = none ∧ s.bitIdx = none ∧ s.acc = none ∧ s.out = none ∧
  s.callResult = none

/-- RESET in flight, at the step `n` (10 R22, R23, R26): between the first SetBaud and the restoring one BAUD holds
RESET_BAUD, whether or not the Transport has failed. -/
def ResetInv (n : ResetStep) (s : State) : Prop :=
  NoWriteReadRegs s ∧
  match n with
  | .save => s.savedBaud = none ∧ s.txBuf = none ∧ s.rxBuf = none
  | .transmit =>
    (∃ b, s.savedBaud = some b ∧ 0 < b) ∧ s.baud = s.params.resetBaud ∧ s.txBuf = none ∧ s.rxBuf = none
  | .receive =>
    (∃ b, s.savedBaud = some b ∧ 0 < b) ∧ s.baud = s.params.resetBaud ∧
    s.txBuf = some [s.params.resetPattern] ∧ s.rxBuf = none
  | .restore =>
    (∃ b, s.savedBaud = some b ∧ 0 < b) ∧ s.baud = s.params.resetBaud ∧
    s.txBuf = some [s.params.resetPattern] ∧ ∃ rx, s.rxBuf = some rx ∧ rx.length ≤ 1
  | .restoreFailed => (∃ b, s.savedBaud = some b ∧ 0 < b) ∧ s.baud = s.params.resetBaud
  | .decide =>
    s.savedBaud = some s.baud ∧ s.txBuf = some [s.params.resetPattern] ∧ ∃ rx, s.rxBuf = some rx ∧ rx.length ≤ 1

/-- WRITE in flight with the operand `d`, at the step `n` (10 R23, R26, R29). While the frame is built, TXBUF holds the
patterns of the bytes before BYTEIDX and of the bits before BITIDX. -/
def WriteInv (n : WriteStep) (d : List Byte) (s : State) : Prop :=
  s.savedBaud = none ∧ s.count = none ∧ s.acc = none ∧ s.out = none ∧ s.data = some d ∧
  match n with
  | .start => s.txBuf = none ∧ s.rxBuf = none ∧ s.byteIdx = none ∧ s.bitIdx = none ∧ s.callResult = none
  | .build =>
    s.rxBuf = none ∧ ∃ k i, s.byteIdx = some k ∧ s.bitIdx = some i ∧ k ≤ d.length ∧
    ((i = 0 ∧ s.callResult = none ∧ s.txBuf = some (frame s.params (d.take k))) ∨
     ∃ b, d[k]? = some b ∧ s.callResult = some (.patterns (serialize s.params b)) ∧
       s.txBuf = some (frame s.params (d.take k) ++ (serialize s.params b).take i.val))
  | .transmit => s.rxBuf = none ∧ s.callResult = none ∧ d ≠ [] ∧ s.txBuf = some (frame s.params d)
  | .receive => s.rxBuf = none ∧ s.callResult = none ∧ d ≠ [] ∧ s.txBuf = some (frame s.params d)
  | .compare =>
    s.callResult = none ∧ d ≠ [] ∧ s.txBuf = some (frame s.params d) ∧
    ∃ rx, s.rxBuf = some rx ∧ rx.length ≤ 8 * d.length

/-- READ between two slots or in one: byte `k` of `c` is being assembled, `i` of its bits are in ACC (10 R23, R26). -/
def SlotInv (c : Nat) (s : State) : Prop :=
  ∃ k i a o, s.byteIdx = some k ∧ k < c ∧ s.bitIdx = some i ∧ s.acc = some a ∧ a.toNat < 2 ^ i.val ∧
    s.out = some o ∧ o.length = k

/-- READ in flight with the operand `c`, at the step `n` (10 R23, R26, R29). -/
def ReadInv (n : ReadStep) (c : Nat) (s : State) : Prop :=
  s.savedBaud = none ∧ s.data = none ∧ s.count = some c ∧
  match n with
  | .start =>
    s.txBuf = none ∧ s.rxBuf = none ∧ s.byteIdx = none ∧ s.bitIdx = none ∧ s.acc = none ∧ s.out = none ∧
    s.callResult = none
  | .byte => s.callResult = none ∧ ∃ k o, s.byteIdx = some k ∧ k ≤ c ∧ s.out = some o ∧ o.length = k
  | .transmit => (s.callResult = none ∨ s.callResult = some (.pattern Config.onePattern)) ∧ SlotInv c s
  | .receive => s.callResult = none ∧ s.txBuf = some [Config.onePattern] ∧ SlotInv c s
  | .decode =>
    s.txBuf = some [Config.onePattern] ∧ SlotInv c s ∧
    ∃ rx, s.rxBuf = some rx ∧ rx.length ≤ 1 ∧
      (s.callResult = none ∨ ∃ e, rx = [e] ∧ s.callResult = some (.slot (decodeSlot e)))

/-- The invariant of the machine: the parameters are admissible, BAUD is a positive integer (10 R20), and the registers
stand as the position of the sequencer says; idle, none of the transient ones holds a value (10 R24). -/
def Consistent (s : State) : Prop :=
  s.params.Admissible ∧ 0 < s.baud ∧
  match s.phase with
  | .idle => Quiet s
  | .reset n => ResetInv n s
  | .write n => ∃ d, WriteInv n d s
  | .read n => ∃ c, ReadInv n c s

/-! ## What a claim may take as a premise, and what it may say -/

/-- The wired-AND property of a well-behaved bus for one transmitted byte `t` and its echo `e` (20 R45): `e & t == e`. -/
abbrev WiredAnd (t e : Byte) : Prop := e &&& t = e

/-- The answers of an environment that answers each slot of a READ with one byte of `es`, in slot order: for each slot
one answer to TxWrite and one to RxRead (42 R128). -/
def slotAnswers (es : List Byte) : List Answer := es.flatMap fun e => [.ret [], .ret [e]]

/-- The events of the slots of a READ that are answered with the bytes `es` (42 R128). -/
def slotEvents (h : Nat) (es : List Byte) : List Event :=
  es.flatMap fun e => [.txWrite h [Config.onePattern], .rxRead h 1 [e]]

/-- A byte from its bits, the first one bit 0 (30 R79, 20 R47). -/
def byteOf : List ProtocolBit → Byte
  | [] => 0
  | v :: vs => BitVec.shiftConcat (byteOf vs) v

/-- The bytes of a sequence of bits, eight to a byte, in order (20 R46, R47). -/
def bytesOf (bits : List ProtocolBit) : Nat → List Byte
  | 0 => []
  | n + 1 => byteOf (bits.take 8) :: bytesOf (bits.drop 8) n

/-- SMP, bit 0 of a received slot byte (30 R73). -/
def sampledBit (e : Byte) : ProtocolBit := e.getLsbD 0

/-- The inverse of ENCODE_BIT on its own range (90 C2): a test helper, not an operation of the block. -/
def unencode (b : Byte) : ProtocolBit := b == Config.onePattern

end Sys2Proof.Machine
end

