-- ==== Sys2Proof/Certificates/Slice0/Obligations.lean ====
section
/-! DEFINITION. Certificates/Slice0/Obligations.lean: the statements for the provers, each a rule of spec/ about what an
instruction or the machine does. A statement about all states holds for every value of the parameters (00 R9) and for
every environment. A file of spec/ and a rule are cited as, for instance, 41 R110. -/

open Sys2Proof Sys2Proof.Machine

/-! ## Encoding -/

/-- Words written out bit by bit from opcode_table.json and 30 R72, R73, R74, R77 decode to their rows. In the nine clauses
with decodeTableWord the word stands bare, with nothing to say its format: that it is then read as the FIRST row of the table
that fits is the model's choice (log entry 15; by 30 R83 the byte 0xFF is RXSLOT_BIT1 where READ receives it, and 0xF0 is
RXSLOT_BIT0 or RXRST_NOPRESENCE), and so is an empty or zero operand beside a bare selector (log entry 10). The four clauses
with decode name the format. -/
def Obligations.TableWordsDecodeToTheirRows : Prop :=
  decodeTableWord 2 0b00 = some .reset ∧
  decodeTableWord 2 0b01 = some (.write []) ∧
  decodeTableWord 2 0b10 = some (.read 0) ∧
  decodeTableWord 2 0b11 = some .cmdReserved ∧
  decodeTableWord 8 0b11111111 = some .txpOne ∧
  decodeTableWord 8 0b10000000 = some .txpZero ∧
  decodeTableWord 8 0b11110000 = some .txpReset ∧
  decodeTableWord 8 0b11110101 = some (.rxslotBit1 0b010) ∧
  decodeTableWord 8 0b11101101 = some (.rxslotBad4 0b1101) ∧
  decode Config.Params.default (.rxslot 0b11110110) = .ok (.rxslotBit0 0b011) ∧
  decode Config.Params.default (.rxslot 0b00000000) = .ok (.rxslotBad7 0) ∧
  decode Config.Params.default (.rxrst 0b11110000) = .ok .rxrstNoPresence ∧
  decode Config.Params.default (.rxrst 0b01110000) = .ok (.rxrstPresence 0b01110000)

/-- 30 R77: the selector chooses the command, whose operand stands beside it; the operand a command does not have is not
looked at (log entry 10). The two-bit selector is the spec's own numbering (D11). -/
def Obligations.SelectorChoosesTheCommand : Prop :=
  ∀ (data : List Byte) (count : Nat),
    decodeCmd ⟨0b00, data, count⟩ = .reset ∧
    decodeCmd ⟨0b01, data, count⟩ = .write data ∧
    decodeCmd ⟨0b10, data, count⟩ = .read count ∧
    decodeCmd ⟨0b11, data, count⟩ = .cmdReserved

/-- Decoding an encoded well-formed instruction gives it back, for every row that has an encoding and every operand;
the rows without one are exactly the internal functions, which no bit pattern selects (30 R80). -/
def Obligations.DecodeUndoesEncode : Prop :=
  ∀ (p : Config.Params) (i : Instr), p.zeroPattern ≠ Config.onePattern → wellFormed p i = true →
    (∀ c, encode p i = some c → decode p c = .ok i) ∧
    (encode p i = none ↔ (∃ b, i = .encodeBit b) ∨ (∃ e, i = .decodeSlot e) ∨ (∃ b, i = .serialize b))

/-- 30 R81: every received byte has a row, in READ and in RESET, and the row's encoding is that byte: the six RXSLOT
rows partition the 256 values, and so do the two RXRST rows. -/
def Obligations.ReceivedBytesAreOneRowEach : Prop :=
  ∀ (p : Config.Params) (e : Byte),
    (∃ i, decode p (.rxslot e) = .ok i ∧ encode p i = some (.rxslot e)) ∧
    (∃ i, decode p (.rxrst e) = .ok i ∧ encode p i = some (.rxrst e) ∧ wellFormed p i = true)

/-- 30 R73: the fields of the six RXSLOT rows stand where the bit layout puts them. -/
def Obligations.SlotFieldsStandInPlace : Prop :=
  ∀ (p : Config.Params),
    (∀ ign : BitVec 3, decode p (.rxslot (0xF1 ||| (ign.setWidth 8 <<< 1))) = .ok (.rxslotBit1 ign)) ∧
    (∀ ign : BitVec 3, decode p (.rxslot (0xF0 ||| (ign.setWidth 8 <<< 1))) = .ok (.rxslotBit0 ign)) ∧
    (∀ rest : BitVec 7, decode p (.rxslot (0x00 ||| rest.setWidth 8)) = .ok (.rxslotBad7 rest)) ∧
    (∀ rest : BitVec 6, decode p (.rxslot (0x80 ||| rest.setWidth 8)) = .ok (.rxslotBad6 rest)) ∧
    (∀ rest : BitVec 5, decode p (.rxslot (0xC0 ||| rest.setWidth 8)) = .ok (.rxslotBad5 rest)) ∧
    (∀ rest : BitVec 4, decode p (.rxslot (0xE0 ||| rest.setWidth 8)) = .ok (.rxslotBad4 rest))

/-- 30 R72, R82: a byte is read as a transmitted pattern only when it is one of the three, and only from an operation
that sends it. -/
def Obligations.OnlyThePatternsAreSent : Prop :=
  ∀ (p : Config.Params) (sender : Op) (b : Byte) (i : Instr), decode p (.txpat sender b) = .ok i →
    (i = .txpOne ∧ b = 0xFF ∧ (sender = .write ∨ sender = .read)) ∨
    (i = .txpZero ∧ b = p.zeroPattern ∧ sender = .write) ∨
    (i = .txpReset ∧ b = p.resetPattern ∧ sender = .reset)

/-! ## The internal functions -/

/-- 40 R100: ENCODE_BIT(bit), for each of its two inputs ONE_PATTERN or ZERO_PATTERN; injective when ZERO_PATTERN differs
from ONE_PATTERN (00 R9); with the default parameters 0xFF and 0x80. It is a function of the bit and of the constants, so it
reads and writes no state and raises nothing. -/
def Obligations.EncodeBitIsOneOfTwoPatterns : Prop :=
  ∀ p : Config.Params,
    encodeBit p true = 0xFF ∧ encodeBit p false = p.zeroPattern ∧
    (p.zeroPattern ≠ Config.onePattern → Function.Injective (encodeBit p)) ∧
    encodeBit Config.Params.default true = 0xFF ∧ encodeBit Config.Params.default false = 0x80

/-- 40 R101: DECODE_SLOT(e), for each of the 256 bytes: malformed exactly when the upper four bits are not all ones, whatever
bit 0 is; otherwise bit 0; bits 3:1 never influence it; with the rule's own examples. It is a function of the byte alone, so
it reads and writes no state and raises nothing. -/
def Obligations.DecodeSlotChecksTheUpperHalf : Prop :=
  ∀ e : Byte,
    (decodeSlot e = .malformed ↔ e &&& 0xF0 ≠ 0xF0) ∧
    (e &&& 0xF0 = 0xF0 → decodeSlot e = .bit (e.getLsbD 0)) ∧
    (∀ x : Byte, decodeSlot ((e &&& 0xF1) ||| (x &&& 0x0E)) = decodeSlot e) ∧
    decodeSlot 0x00 = .malformed ∧ decodeSlot 0xFF = .bit true ∧ decodeSlot 0xFE = .bit false ∧
    decodeSlot 0xF0 = .bit false ∧ decodeSlot 0x7F = .malformed

/-- 42 R120: SERIALIZE(b), the eight patterns of the byte, bit 0 first, never any other value; eight ZERO_PATTERN for 0x00,
eight ONE_PATTERN for 0xFF; the rule's example 0xB0. It is a function of the byte and of the constants, so it reads and
writes no state and raises nothing. -/
def Obligations.SerializeIsBitZeroFirst : Prop :=
  ∀ (p : Config.Params) (b : Byte),
    serialize p b =
      [encodeBit p (b.getLsbD 0), encodeBit p (b.getLsbD 1), encodeBit p (b.getLsbD 2), encodeBit p (b.getLsbD 3),
       encodeBit p (b.getLsbD 4), encodeBit p (b.getLsbD 5), encodeBit p (b.getLsbD 6), encodeBit p (b.getLsbD 7)] ∧
    (∀ w ∈ serialize p b, w = 0xFF ∨ w = p.zeroPattern) ∧
    serialize p 0x00 = List.replicate 8 p.zeroPattern ∧ serialize p 0xFF = List.replicate 8 0xFF ∧
    serialize Config.Params.default 0xB0 = [0x80, 0x80, 0x80, 0x80, 0xFF, 0xFF, 0x80, 0xFF]

/-- The rows of format FUNC complete in every state, whatever the operand: the function's value is handed to the caller, and
nothing else changes. That it stands in a register of its own until the caller uses it is the model's choice (log entry
13). -/
def Obligations.FunctionsHandTheirValueOver : Prop :=
  ∀ (s : State) (v : ProtocolBit) (e b : Byte),
    exec (.encodeBit v) s = .next { s with callResult := some (.pattern (encodeBit s.params v)) } ∧
    exec (.decodeSlot e) s = .next { s with callResult := some (.slot (decodeSlot e)) } ∧
    exec (.serialize b) s = .next { s with callResult := some (.patterns (serialize s.params b)) }

/-- 30 R75: the frame of `data` has 8 × len(data) bytes, F[8k + i] is ENCODE_BIT of bit i of byte k, and every element
is ONE_PATTERN or ZERO_PATTERN. -/
def Obligations.FrameHoldsEveryBitInOrder : Prop :=
  ∀ (p : Config.Params) (data : List Byte),
    (frame p data).length = 8 * data.length ∧
    (∀ (k : Nat) (i : Fin 8) (b : Byte), data[k]? = some b →
      (frame p data)[8 * k + i.val]? = some (encodeBit p (b.getLsbD i.val))) ∧
    ∀ w ∈ frame p data, w = 0xFF ∨ w = p.zeroPattern

/-- 90 C2, 95 S1: the frame of a byte, mapped back pattern by pattern with the inverse of ENCODE_BIT and assembled least
significant bit first, is that byte. The inverse is a test helper, not an operation of the block. -/
def Obligations.FrameOfAByteMapsBack : Prop :=
  ∀ (p : Config.Params) (b : Byte), p.zeroPattern ≠ Config.onePattern →
    byteOf ((serialize p b).map unencode) = b

/-- 30 R79: the bit put at position i is or-ed into bit i, and the other bits stay; or-ing the eight bits of a byte one after
the other into 0 gives the byte. -/
def Obligations.PlacedBitsMakeTheByte : Prop :=
  (∀ (a : Byte) (v : ProtocolBit) (i j : Fin 8),
    (placeBit a v i).getLsbD j.val = if j = i then (a.getLsbD j.val || v) else a.getLsbD j.val) ∧
  ∀ b : Byte, bitPositions.foldl (fun a i => placeBit a (bitOf b i) i) 0 = b

/-! ## Initialisation, and which step is next -/

/-- 10 R32, 70 R180 (a decision of the spec, D16): after `open` with any parameters BAUD is the `baud_rate` argument, the
other arguments are kept, PHASE is IDLE, no transient register holds a value, and nothing has been sent or delivered. No
free value has been drawn: the counter is the model's own (log entry 5), as are the recorded events and results (log entry
17). State.reset is that state for the model's default parameters, among them the spec's default ZERO_PATTERN and
RESET_PATTERN (00 R9); that State.reset takes the defaults is log entry 1. From then on, and whenever it is idle, the block
does nothing until the host presents a command. -/
def Obligations.InitialisationLeavesAQuietBlock : Prop :=
  (∀ p : Config.Params,
    (State.afterOpen p).baud = p.normalBaud ∧ (State.afterOpen p).params = p ∧ Quiet (State.afterOpen p) ∧
    (State.afterOpen p).trace = [] ∧ (State.afterOpen p).results = [] ∧ (State.afterOpen p).draws = 0) ∧
  State.reset = State.afterOpen Config.Params.default ∧
  State.reset.params.zeroPattern = 0x80 ∧ State.reset.params.resetPattern = 0xF0 ∧
  ∀ s : State, s.phase = .idle → s.pending = [] → step s = .next s

/-- A step of the idle block is exec of the command the host presents next, which the host then no longer holds. The list
of the host's commands is the model's own (log entry 9). -/
def Obligations.StepRunsTheCommand : Prop :=
  ∀ (s : State) (w : CmdWord) (ws : List CmdWord), s.phase = .idle → s.pending = w :: ws →
    decode s.params (.cmd w) = .ok (decodeCmd w) ∧ step s = exec (decodeCmd w) { s with pending := ws }

/-- At five positions of the sequencer a byte decodes to a row, in the format that the operation in flight gives it (30 R83),
and the step is exec of that row: RESET about to send its pattern, RESET with an echo to judge, WRITE about to add a pattern
to its frame, READ about to send its pattern, READ with a classified slot byte. That these rows are the steps of the
sequencer is the model's reading (log entry 14). Other steps that send or examine bytes, WRITE's TxWrite and its comparison
among them, have no row. -/
def Obligations.StepRunsTheRowInFlight : Prop :=
  ∀ s : State,
    (s.phase = .reset .transmit → step s = exec .txpReset s) ∧
    (∀ e rest i, s.phase = .reset .decide → s.rxBuf = some (e :: rest) → decode s.params (.rxrst e) = .ok i →
      step s = exec i s) ∧
    (∀ d k i b bs w j, s.phase = .write .build → s.data = some d → s.byteIdx = some k → s.bitIdx = some i →
      d[k]? = some b → s.callResult = some (.patterns bs) → bs[i.val]? = some w →
      decode s.params (.txpat .write w) = .ok j → step s = exec j s) ∧
    (∀ w j, s.phase = .read .transmit → s.callResult = some (.pattern w) →
      decode s.params (.txpat .read w) = .ok j → step s = exec j s) ∧
    (∀ e rest j, s.phase = .read .decode → s.rxBuf = some (e :: rest) →
      s.callResult = some (.slot (decodeSlot e)) → decode s.params (.rxslot e) = .ok j → step s = exec j s)

/-- A step at a position where an operation calls an internal function is exec of that function's row: SERIALIZE by WRITE
for each byte, ENCODE_BIT(1) by READ in each slot, DECODE_SLOT by READ for the byte received (42 R121, R125). That a call is
a step of its own is the model's granularity (log entry 12), that it is made when callResult holds no value its register (log
entry 13), and that a FUNC row is that step its reading (log entry 14). -/
def Obligations.StepCallsTheFunctions : Prop :=
  ∀ s : State, s.callResult = none →
    (∀ d k i b, s.phase = .write .build → s.data = some d → s.byteIdx = some k → s.bitIdx = some i →
      d[k]? = some b → step s = exec (.serialize b) s) ∧
    (s.phase = .read .transmit → step s = exec (.encodeBit true) s) ∧
    (∀ e rest, s.phase = .read .decode → s.rxBuf = some (e :: rest) → step s = exec (.decodeSlot e) s)

/-! ## The façade -/

/-- 43 R141, R145: in every idle state, whatever came before, each command is accepted: PHASE is set to its operation and
its operand is captured; nothing else changes. -/
def Obligations.IdleBlockAcceptsEveryCommand : Prop :=
  ∀ (s : State) (d : List Byte) (n : Nat), s.phase = .idle →
    exec .reset s = .next { s with phase := .reset .save } ∧
    exec (.write d) s = .next { s with phase := .write .start, data := some d } ∧
    exec (.read n) s = .next { s with phase := .read .start, count := some n }

/-- 43 R143, 93 U1 (a decision of the spec, D14): a command presented while an operation is in flight is refused (log
entry 11). -/
def Obligations.CommandInFlightIsRefused : Prop :=
  ∀ (s : State) (d : List Byte) (n : Nat), s.phase ≠ .idle →
    exec .reset s = .refused .commandInFlight ∧ exec (.write d) s = .refused .commandInFlight ∧
    exec (.read n) s = .refused .commandInFlight

/-- 30 R82, 93 U14 (a decision of the spec, D11): the reserved selector is refused in every state. -/
def Obligations.ReservedSelectorIsRefused : Prop :=
  ∀ s : State, exec .cmdReserved s = .refused .reservedSelector

/-- 43 R143, 93 U2 (a decision of the spec, D14): a pattern, a slot byte or an echo presented outside the step of an
operation in flight that handles it is refused: no primitive but those of the operation in flight (log entries 11, 14). -/
def Obligations.ForeignBytesAreRefused : Prop :=
  ∀ s : State,
    (s.phase ≠ .write .build → s.phase ≠ .read .transmit → exec .txpOne s = .refused .outOfSequence) ∧
    (s.phase ≠ .write .build → exec .txpZero s = .refused .outOfSequence) ∧
    (s.phase ≠ .reset .transmit → exec .txpReset s = .refused .outOfSequence) ∧
    (s.phase ≠ .read .decode → ∀ i ign r7 r6 r5 r4,
      i ∈ [Instr.rxslotBit1 ign, .rxslotBit0 ign, .rxslotBad7 r7, .rxslotBad6 r6, .rxslotBad5 r5, .rxslotBad4 r4] →
      exec i s = .refused .outOfSequence) ∧
    (s.phase ≠ .reset .decide → ∀ e,
      exec .rxrstNoPresence s = .refused .outOfSequence ∧ exec (.rxrstPresence e) s = .refused .outOfSequence)

/-- 43 R142, R147: while an operation is in flight, nothing the host has still to present influences a step: there is no
way to cancel it, shorten it or change its operand. -/
def Obligations.HostCannotTouchAnOperation : Prop :=
  ∀ (s t : State) (q : List CmdWord), s.phase ≠ .idle → step s = .next t →
    t.pending = s.pending ∧ step { s with pending := q } = .next { t with pending := q }

/-- 10 R27, 42 R130: no step depends on the recorded history: with any other lists of past events and results the same step
adds the same events and results to them and gives the same state otherwise. The two lists, trace and results, are the
model's own fields (log entry 17); what an operation has sent and received stands in TXBUF and RXBUF, which its steps do
read. -/
def Obligations.NothingIsRemembered : Prop :=
  ∀ (s t : State), step s = .next t →
    ∃ es rs, t.trace = s.trace ++ es ∧ t.results = s.results ++ rs ∧
      ∀ tr res, step { s with trace := tr, results := res } = .next { t with trace := tr ++ es, results := res ++ rs }

/-- 43 R144, 60 R155: delivery gives the caller one result, leaves PHASE at IDLE and no transient register with a value,
and changes nothing else. -/
def Obligations.DeliveryEndsTheOperation : Prop :=
  ∀ (r : Result) (s : State), Quiet (deliver r s) ∧ (deliver r s).results = s.results ++ [r] ∧
    (deliver r s).params = s.params ∧ (deliver r s).baud = s.baud ∧ (deliver r s).pending = s.pending ∧
    (deliver r s).env = s.env ∧ (deliver r s).draws = s.draws ∧ (deliver r s).trace = s.trace

/-- 43 R144: a step ends an operation exactly when it delivers a result, and then exactly one. TransportFault counts as a
result here: that it is delivered with the block idle is the model's reading of 60 R157 (log entry 7). -/
def Obligations.OneResultEndsAnOperation : Prop :=
  ∀ (s t : State), step s = .next t →
    ((s.phase ≠ .idle ∧ t.phase = .idle) ↔ ∃ r, t.results = s.results ++ [r]) ∧
    (t.results = s.results ∨ ∃ r, t.results = s.results ++ [r] ∧ Quiet t)

/-! ## The Transport boundary -/

/-- 20 R53: a step issues at most one primitive, addressed to HANDLE (10 R21); the idle block issues none. -/
def Obligations.OnePrimitiveAtATime : Prop :=
  ∀ (s t : State), step s = .next t →
    (t.trace = s.trace ∨ ∃ e, t.trace = s.trace ++ [e] ∧ e.handle = s.params.handle) ∧
    (s.phase = .idle → t.trace = s.trace)

/-- 20 R43, R50: an RxRead never returns more bytes than asked for; RESET and READ ask for one byte, WRITE for as many as
TXBUF holds. -/
def Obligations.RxReadReturnsAtMostWhatIsAsked : Prop :=
  ∀ (s t : State) (h n : Nat) (a : List Byte), step s = .next t → t.trace = s.trace ++ [.rxRead h n a] →
    a.length ≤ n ∧
    ((s.phase = .reset .receive ∧ n = 1) ∨ (s.phase = .read .receive ∧ n = 1) ∨
     (s.phase = .write .receive ∧ ∃ tx, s.txBuf = some tx ∧ n = tx.length))

/-- 30 R72: what is handed to TxWrite, whether the call returns or reports a failure: by RESET the RESET_PATTERN, at
RESET_BAUD; by READ the ONE_PATTERN; by WRITE the frame of DATA, of ONE_PATTERN and ZERO_PATTERN alone. -/
def Obligations.OnlyPatternsAreTransmitted : Prop :=
  ∀ (s t : State) (h : Nat) (buf : List Byte), Consistent s → step s = .next t →
    (t.trace = s.trace ++ [.txWrite h buf] ∨ t.trace = s.trace ++ [.failed h (.txWrite buf)]) →
    (s.phase = .reset .transmit ∧ buf = [s.params.resetPattern] ∧ s.baud = s.params.resetBaud) ∨
    (s.phase = .read .transmit ∧ buf = [0xFF]) ∨
    (s.phase = .write .transmit ∧ (∃ d, s.data = some d ∧ buf = frame s.params d) ∧
      ∀ b ∈ buf, b = 0xFF ∨ b = s.params.zeroPattern)

/-- 10 R20, 20 R41: BAUD gets its first value from `open` without any SetBaud event; after that only RESET writes it, and
only RESET issues a SetBaud, whether the call returns or reports a failure; when it returns, BAUD holds its rate; outside
RESET no step reads BAUD. -/
def Obligations.OnlyResetUsesBaud : Prop :=
  (∀ p : Config.Params, (State.afterOpen p).baud = p.normalBaud ∧ (State.afterOpen p).trace = []) ∧
  ∀ (s t : State), step s = .next t →
    (t.baud ≠ s.baud → s.phase.op = some .reset) ∧
    (∀ h r, t.trace = s.trace ++ [.setBaud h r] → s.phase.op = some .reset ∧ t.baud = r) ∧
    (∀ h r, t.trace = s.trace ++ [.failed h (.setBaud r)] → s.phase.op = some .reset) ∧
    (s.phase.op ≠ some .reset → ∀ b, step { s with baud := b } = .next { t with baud := b })

/-- 10 R21: the parameters, READ_TIMEOUT, HANDLE and the pattern constants among them, are never written, by a step or by
any instruction. No row of the table writes BAUD by itself: the row RESET is the acceptance alone (log entry 12), and the
SetBaud calls with which the RESET operation writes BAUD (41 R110) are steps without a row. -/
def Obligations.ParametersAreNeverWritten : Prop :=
  (∀ (s t : State), step s = .next t → t.params = s.params) ∧
  ∀ (i : Instr) (s t : State), exec i s = .next t → t.params = s.params ∧ t.baud = s.baud

/-! ## RESET -/

/-- 41 R110: accepted in the quiet block, with a Transport that does not fail, RESET performs its five steps: the four
primitives in order, then NoPresence when the answer is empty or equals RESET_PATTERN, otherwise Ok; BAUD holds RESET_BAUD
from step 1 to step 4 with the old rate in SAVED_BAUD, and ends as it was. Of an answer of more than the one byte asked for
the first byte counts (log entry 6); that each numbered step is a step of the machine is log entry 12. The payload of
NoPresence is a decision of the spec (D13). -/
def Obligations.ResetPerformsItsFiveSteps : Prop :=
  ∀ (s : State) (a b e d : List Byte) (rest : List Answer), Quiet s →
    s.env = .ret a :: .ret b :: .ret e :: .ret d :: rest →
    ∃ u, exec .reset s = .next u ∧
      (∀ k, 1 ≤ k → k ≤ 3 → ∃ v, Runs k u v ∧ v.baud = s.params.resetBaud ∧ v.savedBaud = some s.baud) ∧
      Runs 5 u { s with
        env := rest
        trace := s.trace ++
          [.setBaud s.params.handle s.params.resetBaud, .txWrite s.params.handle [s.params.resetPattern],
           .rxRead s.params.handle 1 (e.take 1), .setBaud s.params.handle s.baud]
        results := s.results ++
          [if e.take 1 = [] ∨ e.take 1 = [s.params.resetPattern] then
             .err .noPresence ⟨[s.params.resetPattern], e.take 1⟩
           else .ok] }

/-- 41 R112: at step 5, with the answer `rx` of step 3: NoPresence exactly when it has fewer than one byte or its one byte
equals RESET_PATTERN in all eight bits; in every other case RESET succeeds. (What an error carries:
ErrorsCarryTheBuffers.) -/
def Obligations.NoPresenceExactlyWhenSameOrNothing : Prop :=
  ∀ (s : State) (tx rx : List Byte), s.phase = .reset .decide → s.txBuf = some tx → s.rxBuf = some rx →
    rx.length ≤ 1 →
    (rx.length < 1 ∨ rx[0]? = some s.params.resetPattern →
      ∃ pl, step s = .next (deliver (.err .noPresence pl) s)) ∧
    (¬ (rx.length < 1 ∨ rx[0]? = some s.params.resetPattern) → step s = .next (deliver .ok s))

/-- 30 R74, 41 R113: the echo rows complete at step 5: the byte equal to RESET_PATTERN raises NoPresence, any of the 255
others delivers Ok. The payload is a decision of the spec (D13); that the row is step 5 is log entry 14. -/
def Obligations.EchoRowsDeliverTheVerdict : Prop :=
  ∀ (s : State) (e : Byte) (rest tx : List Byte), s.phase = .reset .decide → s.txBuf = some tx →
    s.rxBuf = some (e :: rest) →
    (e = s.params.resetPattern →
      exec .rxrstNoPresence s = .next (deliver (.err .noPresence ⟨tx, e :: rest⟩) s)) ∧
    (e ≠ s.params.resetPattern → exec (.rxrstPresence e) s = .next (deliver .ok s))

/-- 41 R110 step 2, 60 R157 (D15): TXP_RESET puts RESET_PATTERN into TXBUF and transmits it; when the Transport fails, step 4
is still to come. That the row is step 2 is log entry 14. -/
def Obligations.TxpResetTransmitsTheResetPattern : Prop :=
  ∀ (s : State) (a : List Byte) (rest : List Answer), s.phase = .reset .transmit →
    (s.env = .ret a :: rest →
      exec .txpReset s = .next { s with
        phase := .reset .receive, txBuf := some [s.params.resetPattern], env := rest,
        trace := s.trace ++ [.txWrite s.params.handle [s.params.resetPattern]] }) ∧
    (s.env = .fail :: rest →
      exec .txpReset s = .next { s with
        phase := .reset .restoreFailed, txBuf := some [s.params.resetPattern], env := rest,
        trace := s.trace ++ [.failed s.params.handle (.txWrite [s.params.resetPattern])] })

/-- 41 R114, 10 R22: whatever the environment answers, RESET ends, with Ok, NoPresence or TransportFault, and the last
primitive before it ends is the restoring SetBaud: BAUD is what it was at acceptance, unless that SetBaud itself failed (60
R157). That a failing Transport is delivered as a result is the model's reading (log entry 7), that RESET takes at most five
steps its granularity (log entry 12). -/
def Obligations.ResetRestoresBaudOnEveryPath : Prop :=
  ∀ s : State, Quiet s → ∃ u k t r, exec .reset s = .next u ∧ k ≤ 5 ∧ Runs k u t ∧ Quiet t ∧
    t.results = s.results ++ [r] ∧ (r = .ok ∨ (∃ pl, r = .err .noPresence pl) ∨ r = .transportFault) ∧
    ((t.baud = s.baud ∧ t.trace.getLast? = some (.setBaud s.params.handle s.baud)) ∨
     (r = .transportFault ∧ t.trace.getLast? = some (.failed s.params.handle (.setBaud s.baud))))

/-- 10 R22: "During the operation, between its first and its second `SetBaud`, BAUD holds `RESET_BAUD`", whatever the
environment answers, also when the first SetBaud itself has failed, since only a failed restoring SetBaud can break R22 (60
R157, a decision of the spec, D15); SAVED_BAUD then holds the rate at acceptance, and at step 5, with the restoring SetBaud
returned, BAUD is that rate again. That step 1 is one step of the machine is log entry 12, that `results` as it was means the
operation has not ended log entry 17. -/
def Obligations.BaudIsResetBaudUntilRestored : Prop :=
  ∀ (s u v : State) (k : Nat), Quiet s → exec .reset s = .next u → 1 ≤ k → Runs k u v → v.results = s.results →
    (v.phase ≠ .reset .decide → v.baud = s.params.resetBaud ∧ v.savedBaud = some s.baud) ∧
    (v.phase = .reset .decide → v.baud = s.baud)

/-- 60 R157 (a decision of the spec, D15): a Transport that fails in step 1, 2 or 3 of RESET: until the restoring SetBaud BAUD
holds RESET_BAUD (10 R22), the restoring SetBaud is still issued, BAUD is as it was and TransportFault is delivered; one that
fails in step 4: TransportFault, and BAUD is some positive integer. That the failure is delivered as a result is log entry 7,
the free BAUD log entry 8. -/
def Obligations.ResetPassesATransportFaultOn : Prop :=
  ∀ (s : State) (a b c : List Byte) (rest : List Answer), Quiet s →
    (s.env = .fail :: .ret a :: rest → ∃ u v t, exec .reset s = .next u ∧ Runs 1 u v ∧
      v.baud = s.params.resetBaud ∧ v.savedBaud = some s.baud ∧ Runs 1 v t ∧ Quiet t ∧
      t.baud = s.baud ∧ t.results = s.results ++ [.transportFault] ∧
      t.trace = s.trace ++
        [.failed s.params.handle (.setBaud s.params.resetBaud), .setBaud s.params.handle s.baud]) ∧
    (s.env = .ret a :: .fail :: .ret b :: rest → ∃ u v t, exec .reset s = .next u ∧ Runs 2 u v ∧
      v.baud = s.params.resetBaud ∧ v.savedBaud = some s.baud ∧ Runs 1 v t ∧ Quiet t ∧
      t.baud = s.baud ∧ t.results = s.results ++ [.transportFault] ∧
      t.trace = s.trace ++
        [.setBaud s.params.handle s.params.resetBaud, .failed s.params.handle (.txWrite [s.params.resetPattern]),
         .setBaud s.params.handle s.baud]) ∧
    (s.env = .ret a :: .ret b :: .fail :: .ret c :: rest → ∃ u v t, exec .reset s = .next u ∧ Runs 3 u v ∧
      v.baud = s.params.resetBaud ∧ v.savedBaud = some s.baud ∧ Runs 1 v t ∧ Quiet t ∧
      t.baud = s.baud ∧ t.results = s.results ++ [.transportFault] ∧
      t.trace = s.trace ++
        [.setBaud s.params.handle s.params.resetBaud, .txWrite s.params.handle [s.params.resetPattern],
         .failed s.params.handle (.rxRead 1), .setBaud s.params.handle s.baud]) ∧
    (s.env = .ret a :: .ret b :: .ret c :: .fail :: rest → ∃ u v t, exec .reset s = .next u ∧ Runs 3 u v ∧
      v.baud = s.params.resetBaud ∧ v.savedBaud = some s.baud ∧ Runs 1 v t ∧ Quiet t ∧
      0 < t.baud ∧ t.results = s.results ++ [.transportFault] ∧
      t.trace = s.trace ++
        [.setBaud s.params.handle s.params.resetBaud, .txWrite s.params.handle [s.params.resetPattern],
         .rxRead s.params.handle 1 (c.take 1), .failed s.params.handle (.setBaud s.baud)])

/-! ## WRITE -/

/-- 42 R121, R124 (a): accepted in the quiet block, with a Transport that does not fail, WRITE of a non-empty sequence
builds the whole frame, sends it in one TxWrite, asks for as many bytes in one RxRead and delivers Ok when they equal the
frame, otherwise Collision with both buffers; WRITE of the empty sequence delivers Ok with no primitive at all (a decision
of the spec, D9). Nothing else changes. An answer of more bytes than asked for is cut (log entry 6); the number of steps
is the model's granularity (log entry 12). That a shorter answer is a Collision and what its payload is are decisions of
the spec (D7, D13). -/
def Obligations.WriteSendsItsFrameAndCompares : Prop :=
  ∀ (s : State) (data : List Byte), Quiet s →
    (data = [] → ∃ u, exec (.write data) s = .next u ∧ Runs 2 u { s with results := s.results ++ [.ok] }) ∧
    (∀ (a e : List Byte) (rest : List Answer), data ≠ [] → s.env = .ret a :: .ret e :: rest →
      ∃ u, exec (.write data) s = .next u ∧ Runs (9 * data.length + 5) u { s with
        env := rest
        trace := s.trace ++
          [.txWrite s.params.handle (frame s.params data),
           .rxRead s.params.handle (8 * data.length) (e.take (8 * data.length))]
        results := s.results ++
          [if e.take (8 * data.length) = frame s.params data then .ok
           else .err .collision ⟨frame s.params data, e.take (8 * data.length)⟩] })

/-- 42 R123: at the comparison, Collision exactly when the received sequence is not equal to the transmitted one, that is
when it is shorter or some byte differs; the payload is the two sequences whole. That a shorter answer is a Collision is a
decision of the spec (D7). -/
def Obligations.CollisionExactlyWhenDifferent : Prop :=
  ∀ (s : State) (tx rx : List Byte), s.phase = .write .compare → s.txBuf = some tx → s.rxBuf = some rx →
    rx.length ≤ tx.length →
    (rx.length < tx.length ∨ (∃ (j : Nat) (b c : Byte), tx[j]? = some b ∧ rx[j]? = some c ∧ b ≠ c) →
      step s = .next (deliver (.err .collision ⟨tx, rx⟩) s)) ∧
    (¬ (rx.length < tx.length ∨ ∃ (j : Nat) (b c : Byte), tx[j]? = some b ∧ rx[j]? = some c ∧ b ≠ c) →
      step s = .next (deliver .ok s))

/-- 30 R72, R75, 42 R121: TXP_ONE and TXP_ZERO complete while WRITE builds its frame: the pattern SERIALIZE gave for this
bit position is appended to TXBUF and the position moves to the next bit, after bit 7 to the next byte. That each pattern is
a step of its own and where BITIDX then stands are log entry 12, that the patterns stand in the register callResult, emptied
after bit 7, is log entry 13, that a TXPAT row in WRITE is this step is log entry 14. -/
def Obligations.PatternsJoinTheFrame : Prop :=
  ∀ (s : State) (tx bs : List Byte) (k : Nat) (i : Fin 8), s.phase = .write .build → s.txBuf = some tx →
    s.byteIdx = some k → s.bitIdx = some i → s.callResult = some (.patterns bs) →
    (bs[i.val]? = some 0xFF →
      exec .txpOne s = .next { s with
        txBuf := some (tx ++ [0xFF]), bitIdx := some (i + 1), byteIdx := some (if i = 7 then k + 1 else k),
        callResult := if i = 7 then none else s.callResult }) ∧
    (bs[i.val]? = some s.params.zeroPattern →
      exec .txpZero s = .next { s with
        txBuf := some (tx ++ [s.params.zeroPattern]), bitIdx := some (i + 1),
        byteIdx := some (if i = 7 then k + 1 else k), callResult := if i = 7 then none else s.callResult })

/-- 42 R121, R120: one byte of DATA enters the frame in nine steps, the call of SERIALIZE and its eight patterns; the nine
steps do what `TXBUF <- TXBUF ++ SERIALIZE(data[k])` says. The steps are the model's granularity (log entry 12). -/
def Obligations.NineStepsSerializeAByte : Prop :=
  ∀ (s : State) (d tx : List Byte) (k : Nat) (b : Byte), s.phase = .write .build → s.data = some d →
    d[k]? = some b → s.byteIdx = some k → s.bitIdx = some 0 → s.callResult = none → s.txBuf = some tx →
    Runs 9 s { s with txBuf := some (tx ++ serialize s.params b), byteIdx := some (k + 1) }

/-- 60 R157 (a decision of the spec, D15): when TxWrite or RxRead fails during a WRITE, the operation ends at once with
TransportFault, which is not converted into Collision; nothing else changes. That the failure is delivered as a
result is log entry 7, the number of steps log entry 12. -/
def Obligations.WritePassesATransportFaultOn : Prop :=
  ∀ (s : State) (data : List Byte), Quiet s → data ≠ [] →
    (∀ rest, s.env = .fail :: rest → ∃ u, exec (.write data) s = .next u ∧
      Runs (9 * data.length + 3) u { s with
        env := rest
        trace := s.trace ++ [.failed s.params.handle (.txWrite (frame s.params data))]
        results := s.results ++ [.transportFault] }) ∧
    (∀ a rest, s.env = .ret a :: .fail :: rest → ∃ u, exec (.write data) s = .next u ∧
      Runs (9 * data.length + 4) u { s with
        env := rest
        trace := s.trace ++
          [.txWrite s.params.handle (frame s.params data), .failed s.params.handle (.rxRead (8 * data.length))]
        results := s.results ++ [.transportFault] })

/-! ## READ -/

/-- 42 R125: accepted in the quiet block, with every slot answered by one well-formed byte, READ(count) performs exactly
8 × count slot transactions, each a TxWrite of ONE_PATTERN and an RxRead of one byte, and delivers exactly count bytes: bit
s mod 8 of byte s div 8 is SMP of the answer to slot s. READ(0) issues no primitive (a decision of the spec, D9). Nothing
else changes. The number of steps is the model's granularity (log entry 12). -/
def Obligations.ReadReturnsTheSampledBits : Prop :=
  ∀ (s : State) (n : Nat) (es : List Byte) (rest : List Answer), Quiet s → es.length = 8 * n →
    (∀ e ∈ es, decodeSlot e ≠ .malformed) → s.env = slotAnswers es ++ rest →
    (bytesOf (es.map sampledBit) n).length = n ∧
    ∃ u, exec (.read n) s = .next u ∧ Runs (41 * n + 2) u { s with
      env := rest
      trace := s.trace ++ slotEvents s.params.handle es
      results := s.results ++ [.okBytes (bytesOf (es.map sampledBit) n)] }

/-- 42 R126, R127: at the first slot whose answer is malformed, or empty (a decision of the spec, D8), READ ends with
SymbolError: the slots up to it have been generated, none after it, and nothing of what was assembled is delivered. The
payload is a decision of the spec (D13). -/
def Obligations.ReadAbortsAtTheFirstMalformedSlot : Prop :=
  ∀ (s : State) (n : Nat) (es a obs : List Byte) (rest : List Answer), Quiet s → es.length < 8 * n →
    (∀ e ∈ es, decodeSlot e ≠ .malformed) → (obs = [] ∨ ∃ e, obs = [e] ∧ decodeSlot e = .malformed) →
    s.env = slotAnswers es ++ .ret a :: .ret obs :: rest →
    ∃ u k, exec (.read n) s = .next u ∧ Runs k u { s with
      env := rest
      trace := s.trace ++ slotEvents s.params.handle es ++
        [.txWrite s.params.handle [0xFF], .rxRead s.params.handle 1 obs]
      results := s.results ++ [.err .symbolError ⟨[0xFF], obs⟩] }

/-- 42 R125: one slot transaction of READ takes five steps; its bit is put at BITIDX of ACC, and after bit 7 the byte is
appended to OUT. The steps are the model's granularity, and that BITIDX stays 7 after the last bit its choice (log entry
12). -/
def Obligations.FiveStepsReadASlot : Prop :=
  ∀ (s : State) (k : Nat) (i : Fin 8) (a : Byte) (o x : List Byte) (e : Byte) (v : ProtocolBit) (rest : List Answer),
    s.phase = .read .transmit → s.callResult = none → s.byteIdx = some k → s.bitIdx = some i → s.acc = some a →
    s.out = some o → s.env = .ret x :: .ret [e] :: rest → decodeSlot e = .bit v →
    Runs 5 s { s with
      phase := if i = 7 then .read .byte else .read .transmit
      txBuf := some [0xFF]
      rxBuf := some [e]
      acc := some (placeBit a v i)
      bitIdx := some (if i = 7 then 7 else i + 1)
      byteIdx := some (if i = 7 then k + 1 else k)
      out := some (if i = 7 then o ++ [placeBit a v i] else o)
      env := rest
      trace := s.trace ++ [.txWrite s.params.handle [0xFF], .rxRead s.params.handle 1 [e]] }

/-- 42 R125, 30 R79: the two bit rows complete at the step that acts on the received byte: the bit goes to ACC at BITIDX
and the position moves on, after bit 7 with ACC appended to OUT. That BITIDX then stays 7 is the model's choice (log entry
12); the register callResult, which holds what DECODE_SLOT said and is emptied, is its own (log entry 13), and that a slot row
is this step its reading (log entry 14). -/
def Obligations.BitRowsPlaceTheBit : Prop :=
  ∀ (s : State) (ign : BitVec 3) (k : Nat) (i : Fin 8) (a : Byte) (o rest : List Byte) (v : ProtocolBit),
    s.phase = .read .decode → s.rxBuf = some ((if v then bit1Byte ign else bit0Byte ign) :: rest) →
    s.callResult = some (.slot (.bit v)) → s.byteIdx = some k → s.bitIdx = some i → s.acc = some a → s.out = some o →
    exec (if v then .rxslotBit1 ign else .rxslotBit0 ign) s = .next { s with
      phase := if i = 7 then .read .byte else .read .transmit
      acc := some (placeBit a v i)
      bitIdx := some (if i = 7 then 7 else i + 1)
      byteIdx := some (if i = 7 then k + 1 else k)
      out := some (if i = 7 then o ++ [placeBit a v i] else o)
      callResult := none }

/-- 42 R126, R127, 60 R155: the four malformed rows complete at the step that acts on the received byte: SymbolError is
delivered at once, with what was sent and received (a decision of the spec, D13), and everything assembled is discarded. The
register callResult is the model's own (log entry 13), and that a slot row is this step its reading (log entry 14). -/
def Obligations.MalformedRowsEndTheRead : Prop :=
  ∀ (s : State) (tx rest : List Byte), s.phase = .read .decode → s.txBuf = some tx →
    s.callResult = some (.slot .malformed) →
    (∀ r : BitVec 7, s.rxBuf = some (bad7Byte r :: rest) →
      exec (.rxslotBad7 r) s = .next (deliver (.err .symbolError ⟨tx, bad7Byte r :: rest⟩) s)) ∧
    (∀ r : BitVec 6, s.rxBuf = some (bad6Byte r :: rest) →
      exec (.rxslotBad6 r) s = .next (deliver (.err .symbolError ⟨tx, bad6Byte r :: rest⟩) s)) ∧
    (∀ r : BitVec 5, s.rxBuf = some (bad5Byte r :: rest) →
      exec (.rxslotBad5 r) s = .next (deliver (.err .symbolError ⟨tx, bad5Byte r :: rest⟩) s)) ∧
    (∀ r : BitVec 4, s.rxBuf = some (bad4Byte r :: rest) →
      exec (.rxslotBad4 r) s = .next (deliver (.err .symbolError ⟨tx, bad4Byte r :: rest⟩) s))

/-- 42 R125, 60 R157: TXP_ONE completes in a READ slot: ONE_PATTERN is TXBUF and is transmitted; when the Transport fails,
the READ ends at once with TransportFault (a decision of the spec, D15). That the failure is delivered as a result is log
entry 7; the register callResult is log entry 13, the row as this step log entry 14. -/
def Obligations.TxpOneOpensAReadSlot : Prop :=
  ∀ (s : State) (x : List Byte) (rest : List Answer), s.phase = .read .transmit →
    s.callResult = some (.pattern 0xFF) →
    (s.env = .ret x :: rest →
      exec .txpOne s = .next { s with
        phase := .read .receive, txBuf := some [0xFF], callResult := none, env := rest,
        trace := s.trace ++ [.txWrite s.params.handle [0xFF]] }) ∧
    (s.env = .fail :: rest →
      exec .txpOne s = .next (deliver .transportFault { s with
        env := rest, trace := s.trace ++ [.failed s.params.handle (.txWrite [0xFF])] }))

/-- 60 R157 (a decision of the spec, D15): when TxWrite or RxRead fails in a slot of a READ, after any number of
well-formed slots, the operation ends at once with TransportFault, which is not converted into SymbolError. That the
failure is delivered as a result is log entry 7. -/
def Obligations.ReadPassesATransportFaultOn : Prop :=
  ∀ (s : State) (n : Nat) (es : List Byte), Quiet s → es.length < 8 * n → (∀ e ∈ es, decodeSlot e ≠ .malformed) →
    (∀ rest, s.env = slotAnswers es ++ .fail :: rest → ∃ u k, exec (.read n) s = .next u ∧ Runs k u { s with
      env := rest
      trace := s.trace ++ slotEvents s.params.handle es ++ [.failed s.params.handle (.txWrite [0xFF])]
      results := s.results ++ [.transportFault] }) ∧
    (∀ a rest, s.env = slotAnswers es ++ .ret a :: .fail :: rest → ∃ u k, exec (.read n) s = .next u ∧ Runs k u { s with
      env := rest
      trace := s.trace ++ slotEvents s.params.handle es ++
        [.txWrite s.params.handle [0xFF], .failed s.params.handle (.rxRead 1)]
      results := s.results ++ [.transportFault] })

/-! ## Errors -/

/-- 60 R150, 43 R144: each error kind is delivered by one operation alone; the success without bytes comes from RESET or
WRITE, the success with bytes from READ. -/
def Obligations.EachErrorHasOneOperation : Prop :=
  ∀ (s t : State) (r : Result), step s = .next t → t.results = s.results ++ [r] →
    (∀ pl, r = .err .noPresence pl → s.phase.op = some .reset) ∧
    (∀ pl, r = .err .symbolError pl → s.phase.op = some .read) ∧
    (∀ pl, r = .err .collision pl → s.phase.op = some .write) ∧
    (r = .ok → s.phase.op = some .reset ∨ s.phase.op = some .write) ∧
    (∀ bs, r = .okBytes bs → s.phase.op = some .read)

/-- 60 R152 (a decision of the spec, D13), R156: an error carries the content of TXBUF and of RXBUF, and the step that
delivers it issues no primitive and leaves BAUD alone. -/
def Obligations.ErrorsCarryTheBuffers : Prop :=
  ∀ (s t : State) (kind : ErrorKind) (pl : Payload), step s = .next t →
    t.results = s.results ++ [.err kind pl] →
    s.txBuf = some pl.expected ∧ s.rxBuf = some pl.observed ∧ t.trace = s.trace ∧ t.baud = s.baud ∧ Quiet t

/-! ## Frames: what an instruction leaves unchanged. There is no memory (10 R30) and no status register (10 R27). -/

/-- Format CMD: an accepted command writes PHASE, and its operand register, and nothing else. -/
def Obligations.FrameOfCommands : Prop :=
  ∀ (i : Instr) (s t : State) (d : List Byte) (n : Nat), i ∈ [Instr.reset, .write d, .read n] → exec i s = .next t →
    t = { s with phase := t.phase, data := t.data, count := t.count } ∧
    (i ≠ .write d → t.data = s.data) ∧ (i ≠ .read n → t.count = s.count)

/-- Format TXPAT: a pattern row writes TXBUF, the position (PHASE, BYTEIDX, BITIDX), the value it takes from the function,
and by a transmission the environment's answers and the trace; unless it ends a READ whose Transport has failed (60 R157, a
decision of the spec, D15): that TransportFault is then delivered as a result is log entry 7. -/
def Obligations.FrameOfPatternRows : Prop :=
  ∀ (i : Instr) (s t : State), i ∈ [Instr.txpOne, .txpZero, .txpReset] → exec i s = .next t →
    t = { s with
      phase := t.phase, txBuf := t.txBuf, byteIdx := t.byteIdx, bitIdx := t.bitIdx, callResult := t.callResult,
      env := t.env, draws := t.draws, trace := t.trace } ∨
    (s.phase = .read .transmit ∧
      t = deliver .transportFault { s with env := t.env, draws := t.draws, trace := t.trace })

/-- Format RXSLOT: a bit row writes ACC, OUT, the position and the value it takes from DECODE_SLOT; a malformed row ends
the operation with SymbolError. -/
def Obligations.FrameOfSlotRows : Prop :=
  ∀ (i : Instr) (s t : State) (ign : BitVec 3) (r7 : BitVec 7) (r6 : BitVec 6) (r5 : BitVec 5) (r4 : BitVec 4),
    exec i s = .next t →
    (i ∈ [Instr.rxslotBit1 ign, .rxslotBit0 ign] →
      t = { s with
        phase := t.phase, acc := t.acc, out := t.out, byteIdx := t.byteIdx, bitIdx := t.bitIdx,
        callResult := t.callResult }) ∧
    (i ∈ [Instr.rxslotBad7 r7, .rxslotBad6 r6, .rxslotBad5 r5, .rxslotBad4 r4] →
      ∃ tx rx, s.txBuf = some tx ∧ s.rxBuf = some rx ∧ t = deliver (.err .symbolError ⟨tx, rx⟩) s)

/-- Format RXRST: an echo row ends the operation, with Ok or NoPresence, and changes nothing that outlives it. -/
def Obligations.FrameOfEchoRows : Prop :=
  ∀ (i : Instr) (s t : State) (e : Byte), i ∈ [Instr.rxrstNoPresence, .rxrstPresence e] → exec i s = .next t →
    t = deliver .ok s ∨ ∃ tx rx, s.txBuf = some tx ∧ s.rxBuf = some rx ∧ t = deliver (.err .noPresence ⟨tx, rx⟩) s

/-! ## The whole machine -/

/-- The state after initialisation meets the invariant and the premises of a run's start (43 R149), for every admissible
choice of the parameters. -/
def Obligations.InitialStateMeetsTheInvariant : Prop :=
  (∀ p : Config.Params, p.Admissible → Consistent (State.afterOpen p) ∧ ProperStart (State.afterOpen p)) ∧ Consistent State.reset

/-- Every step keeps the invariant: the parameters stay admissible, BAUD a positive integer, the registers as the position
says (in WRITE, TXBUF is the frame of the bits passed), and idle, no transient register holds a value (10 R20, R24, R26). -/
def Obligations.EveryStepKeepsTheInvariant : Prop :=
  ∀ (s t : State), Consistent s → step s = .next t → Consistent t

/-- From a state that meets the invariant, a step never faults; it is refused only when the idle block is presented the
reserved selector; so in flight it always answers a next state. It does so also when the Transport fails, because the model
delivers that failure as a result, where 60 R157 allows a fault outcome (log entry 7). -/
def Obligations.NoOperationGetsStuck : Prop :=
  ∀ s : State, Consistent s →
    (∃ t, step s = .next t) ∨
    (step s = .refused .reservedSelector ∧ s.phase = .idle ∧ ∃ w ws, s.pending = w :: ws ∧ w.op = 0b11)

/-- 43 R147, R144: "every operation ends": whatever the environment answers, an operation in flight delivers exactly one
result and leaves the block idle, within the steps its operand allows (granularity: log entry 12; a failing Transport is
delivered as a result: log entry 7). -/
def Obligations.EveryOperationEndsWithOneResult : Prop :=
  ∀ s : State, Consistent s → s.phase ≠ .idle →
    ∃ k t r, 0 < k ∧ k ≤ stepBound s ∧ Runs k s t ∧ Quiet t ∧ t.results = s.results ++ [r]

/-- 20 R45, 41 R113: under the wired-AND property an echo that differs from the byte sent has some bit-time low that was
released when sent: then a RESET that succeeds has seen the line pulled low. The property is a premise of this claim, never
a fact built into the step. -/
def Obligations.PresenceIsALinePulledLow : Prop :=
  ∀ (s t : State) (e : Byte), s.phase = .reset .decide → s.rxBuf = some [e] → WiredAnd s.params.resetPattern e →
    exec (.rxrstPresence e) s = .next t → t.results = s.results ++ [.ok] →
    ∃ i : Fin 8, s.params.resetPattern.getLsbD i.val = true ∧ e.getLsbD i.val = false
end

