-- ==== Sys2Proof/Laws/State.lean ====
section
/-! SUPPORT. Laws/State.lean: what each update of State leaves in each field, one lemma per field per update, so that
no later proof unfolds an update. -/

namespace Sys2Proof.Machine

/-! ## An event is recorded -/

@[simp] theorem State.record_params (s : State) (e : Event) : (s.record e).params = s.params := rfl
@[simp] theorem State.record_baud (s : State) (e : Event) : (s.record e).baud = s.baud := rfl
@[simp] theorem State.record_phase (s : State) (e : Event) : (s.record e).phase = s.phase := rfl
@[simp] theorem State.record_savedBaud (s : State) (e : Event) : (s.record e).savedBaud = s.savedBaud := rfl
@[simp] theorem State.record_txBuf (s : State) (e : Event) : (s.record e).txBuf = s.txBuf := rfl
@[simp] theorem State.record_rxBuf (s : State) (e : Event) : (s.record e).rxBuf = s.rxBuf := rfl
@[simp] theorem State.record_data (s : State) (e : Event) : (s.record e).data = s.data := rfl
@[simp] theorem State.record_count (s : State) (e : Event) : (s.record e).count = s.count := rfl
@[simp] theorem State.record_byteIdx (s : State) (e : Event) : (s.record e).byteIdx = s.byteIdx := rfl
@[simp] theorem State.record_bitIdx (s : State) (e : Event) : (s.record e).bitIdx = s.bitIdx := rfl
@[simp] theorem State.record_acc (s : State) (e : Event) : (s.record e).acc = s.acc := rfl
@[simp] theorem State.record_out (s : State) (e : Event) : (s.record e).out = s.out := rfl
@[simp] theorem State.record_callResult (s : State) (e : Event) : (s.record e).callResult = s.callResult := rfl
@[simp] theorem State.record_pending (s : State) (e : Event) : (s.record e).pending = s.pending := rfl
@[simp] theorem State.record_env (s : State) (e : Event) : (s.record e).env = s.env := rfl
@[simp] theorem State.record_draws (s : State) (e : Event) : (s.record e).draws = s.draws := rfl
@[simp] theorem State.record_trace (s : State) (e : Event) : (s.record e).trace = s.trace ++ [e] := rfl
@[simp] theorem State.record_results (s : State) (e : Event) : (s.record e).results = s.results := rfl

/-! ## BAUD is written -/

@[simp] theorem State.withBaud_params (s : State) (r : Nat) : (s.withBaud r).params = s.params := rfl
@[simp] theorem State.withBaud_baud (s : State) (r : Nat) : (s.withBaud r).baud = r := rfl
@[simp] theorem State.withBaud_phase (s : State) (r : Nat) : (s.withBaud r).phase = s.phase := rfl
@[simp] theorem State.withBaud_savedBaud (s : State) (r : Nat) : (s.withBaud r).savedBaud = s.savedBaud := rfl
@[simp] theorem State.withBaud_txBuf (s : State) (r : Nat) : (s.withBaud r).txBuf = s.txBuf := rfl
@[simp] theorem State.withBaud_rxBuf (s : State) (r : Nat) : (s.withBaud r).rxBuf = s.rxBuf := rfl
@[simp] theorem State.withBaud_data (s : State) (r : Nat) : (s.withBaud r).data = s.data := rfl
@[simp] theorem State.withBaud_count (s : State) (r : Nat) : (s.withBaud r).count = s.count := rfl
@[simp] theorem State.withBaud_byteIdx (s : State) (r : Nat) : (s.withBaud r).byteIdx = s.byteIdx := rfl
@[simp] theorem State.withBaud_bitIdx (s : State) (r : Nat) : (s.withBaud r).bitIdx = s.bitIdx := rfl
@[simp] theorem State.withBaud_acc (s : State) (r : Nat) : (s.withBaud r).acc = s.acc := rfl
@[simp] theorem State.withBaud_out (s : State) (r : Nat) : (s.withBaud r).out = s.out := rfl
@[simp] theorem State.withBaud_callResult (s : State) (r : Nat) : (s.withBaud r).callResult = s.callResult := rfl
@[simp] theorem State.withBaud_pending (s : State) (r : Nat) : (s.withBaud r).pending = s.pending := rfl
@[simp] theorem State.withBaud_env (s : State) (r : Nat) : (s.withBaud r).env = s.env := rfl
@[simp] theorem State.withBaud_draws (s : State) (r : Nat) : (s.withBaud r).draws = s.draws := rfl
@[simp] theorem State.withBaud_trace (s : State) (r : Nat) : (s.withBaud r).trace = s.trace := rfl
@[simp] theorem State.withBaud_results (s : State) (r : Nat) : (s.withBaud r).results = s.results := rfl

/-! ## BAUD is unspecified -/

@[simp] theorem State.freeBaud_params (s : State) : (s.freeBaud).params = s.params := rfl
@[simp] theorem State.freeBaud_baud (s : State) : (s.freeBaud).baud = Config.freeBaud s.draws + 1 := rfl
@[simp] theorem State.freeBaud_phase (s : State) : (s.freeBaud).phase = s.phase := rfl
@[simp] theorem State.freeBaud_savedBaud (s : State) : (s.freeBaud).savedBaud = s.savedBaud := rfl
@[simp] theorem State.freeBaud_txBuf (s : State) : (s.freeBaud).txBuf = s.txBuf := rfl
@[simp] theorem State.freeBaud_rxBuf (s : State) : (s.freeBaud).rxBuf = s.rxBuf := rfl
@[simp] theorem State.freeBaud_data (s : State) : (s.freeBaud).data = s.data := rfl
@[simp] theorem State.freeBaud_count (s : State) : (s.freeBaud).count = s.count := rfl
@[simp] theorem State.freeBaud_byteIdx (s : State) : (s.freeBaud).byteIdx = s.byteIdx := rfl
@[simp] theorem State.freeBaud_bitIdx (s : State) : (s.freeBaud).bitIdx = s.bitIdx := rfl
@[simp] theorem State.freeBaud_acc (s : State) : (s.freeBaud).acc = s.acc := rfl
@[simp] theorem State.freeBaud_out (s : State) : (s.freeBaud).out = s.out := rfl
@[simp] theorem State.freeBaud_callResult (s : State) : (s.freeBaud).callResult = s.callResult := rfl
@[simp] theorem State.freeBaud_pending (s : State) : (s.freeBaud).pending = s.pending := rfl
@[simp] theorem State.freeBaud_env (s : State) : (s.freeBaud).env = s.env := rfl
@[simp] theorem State.freeBaud_draws (s : State) : (s.freeBaud).draws = s.draws + 1 := rfl
@[simp] theorem State.freeBaud_trace (s : State) : (s.freeBaud).trace = s.trace := rfl
@[simp] theorem State.freeBaud_results (s : State) : (s.freeBaud).results = s.results := rfl

/-! ## The position moves -/

@[simp] theorem State.goto_params (s : State) (ph : Phase) : (s.goto ph).params = s.params := rfl
@[simp] theorem State.goto_baud (s : State) (ph : Phase) : (s.goto ph).baud = s.baud := rfl
@[simp] theorem State.goto_phase (s : State) (ph : Phase) : (s.goto ph).phase = ph := rfl
@[simp] theorem State.goto_savedBaud (s : State) (ph : Phase) : (s.goto ph).savedBaud = s.savedBaud := rfl
@[simp] theorem State.goto_txBuf (s : State) (ph : Phase) : (s.goto ph).txBuf = s.txBuf := rfl
@[simp] theorem State.goto_rxBuf (s : State) (ph : Phase) : (s.goto ph).rxBuf = s.rxBuf := rfl
@[simp] theorem State.goto_data (s : State) (ph : Phase) : (s.goto ph).data = s.data := rfl
@[simp] theorem State.goto_count (s : State) (ph : Phase) : (s.goto ph).count = s.count := rfl
@[simp] theorem State.goto_byteIdx (s : State) (ph : Phase) : (s.goto ph).byteIdx = s.byteIdx := rfl
@[simp] theorem State.goto_bitIdx (s : State) (ph : Phase) : (s.goto ph).bitIdx = s.bitIdx := rfl
@[simp] theorem State.goto_acc (s : State) (ph : Phase) : (s.goto ph).acc = s.acc := rfl
@[simp] theorem State.goto_out (s : State) (ph : Phase) : (s.goto ph).out = s.out := rfl
@[simp] theorem State.goto_callResult (s : State) (ph : Phase) : (s.goto ph).callResult = s.callResult := rfl
@[simp] theorem State.goto_pending (s : State) (ph : Phase) : (s.goto ph).pending = s.pending := rfl
@[simp] theorem State.goto_env (s : State) (ph : Phase) : (s.goto ph).env = s.env := rfl
@[simp] theorem State.goto_draws (s : State) (ph : Phase) : (s.goto ph).draws = s.draws := rfl
@[simp] theorem State.goto_trace (s : State) (ph : Phase) : (s.goto ph).trace = s.trace := rfl
@[simp] theorem State.goto_results (s : State) (ph : Phase) : (s.goto ph).results = s.results := rfl

/-! ## The transient registers are given up -/

@[simp] theorem State.clearTransients_params (s : State) : (s.clearTransients).params = s.params := rfl
@[simp] theorem State.clearTransients_baud (s : State) : (s.clearTransients).baud = s.baud := rfl
@[simp] theorem State.clearTransients_phase (s : State) : (s.clearTransients).phase = s.phase := rfl
@[simp] theorem State.clearTransients_savedBaud (s : State) : (s.clearTransients).savedBaud = none := rfl
@[simp] theorem State.clearTransients_txBuf (s : State) : (s.clearTransients).txBuf = none := rfl
@[simp] theorem State.clearTransients_rxBuf (s : State) : (s.clearTransients).rxBuf = none := rfl
@[simp] theorem State.clearTransients_data (s : State) : (s.clearTransients).data = none := rfl
@[simp] theorem State.clearTransients_count (s : State) : (s.clearTransients).count = none := rfl
@[simp] theorem State.clearTransients_byteIdx (s : State) : (s.clearTransients).byteIdx = none := rfl
@[simp] theorem State.clearTransients_bitIdx (s : State) : (s.clearTransients).bitIdx = none := rfl
@[simp] theorem State.clearTransients_acc (s : State) : (s.clearTransients).acc = none := rfl
@[simp] theorem State.clearTransients_out (s : State) : (s.clearTransients).out = none := rfl
@[simp] theorem State.clearTransients_callResult (s : State) : (s.clearTransients).callResult = none := rfl
@[simp] theorem State.clearTransients_pending (s : State) : (s.clearTransients).pending = s.pending := rfl
@[simp] theorem State.clearTransients_env (s : State) : (s.clearTransients).env = s.env := rfl
@[simp] theorem State.clearTransients_draws (s : State) : (s.clearTransients).draws = s.draws := rfl
@[simp] theorem State.clearTransients_trace (s : State) : (s.clearTransients).trace = s.trace := rfl
@[simp] theorem State.clearTransients_results (s : State) : (s.clearTransients).results = s.results := rfl

/-! ## An internal function returns -/

@[simp] theorem State.returns_params (s : State) (r : CallResult) : (s.returns r).params = s.params := rfl
@[simp] theorem State.returns_baud (s : State) (r : CallResult) : (s.returns r).baud = s.baud := rfl
@[simp] theorem State.returns_phase (s : State) (r : CallResult) : (s.returns r).phase = s.phase := rfl
@[simp] theorem State.returns_savedBaud (s : State) (r : CallResult) : (s.returns r).savedBaud = s.savedBaud := rfl
@[simp] theorem State.returns_txBuf (s : State) (r : CallResult) : (s.returns r).txBuf = s.txBuf := rfl
@[simp] theorem State.returns_rxBuf (s : State) (r : CallResult) : (s.returns r).rxBuf = s.rxBuf := rfl
@[simp] theorem State.returns_data (s : State) (r : CallResult) : (s.returns r).data = s.data := rfl
@[simp] theorem State.returns_count (s : State) (r : CallResult) : (s.returns r).count = s.count := rfl
@[simp] theorem State.returns_byteIdx (s : State) (r : CallResult) : (s.returns r).byteIdx = s.byteIdx := rfl
@[simp] theorem State.returns_bitIdx (s : State) (r : CallResult) : (s.returns r).bitIdx = s.bitIdx := rfl
@[simp] theorem State.returns_acc (s : State) (r : CallResult) : (s.returns r).acc = s.acc := rfl
@[simp] theorem State.returns_out (s : State) (r : CallResult) : (s.returns r).out = s.out := rfl
@[simp] theorem State.returns_callResult (s : State) (r : CallResult) : (s.returns r).callResult = some r := rfl
@[simp] theorem State.returns_pending (s : State) (r : CallResult) : (s.returns r).pending = s.pending := rfl
@[simp] theorem State.returns_env (s : State) (r : CallResult) : (s.returns r).env = s.env := rfl
@[simp] theorem State.returns_draws (s : State) (r : CallResult) : (s.returns r).draws = s.draws := rfl
@[simp] theorem State.returns_trace (s : State) (r : CallResult) : (s.returns r).trace = s.trace := rfl
@[simp] theorem State.returns_results (s : State) (r : CallResult) : (s.returns r).results = s.results := rfl

/-! ## A result is delivered -/

@[simp] theorem deliver_params (r : Result) (s : State) : (deliver r s).params = s.params := rfl
@[simp] theorem deliver_baud (r : Result) (s : State) : (deliver r s).baud = s.baud := rfl
@[simp] theorem deliver_phase (r : Result) (s : State) : (deliver r s).phase = .idle := rfl
@[simp] theorem deliver_savedBaud (r : Result) (s : State) : (deliver r s).savedBaud = none := rfl
@[simp] theorem deliver_txBuf (r : Result) (s : State) : (deliver r s).txBuf = none := rfl
@[simp] theorem deliver_rxBuf (r : Result) (s : State) : (deliver r s).rxBuf = none := rfl
@[simp] theorem deliver_data (r : Result) (s : State) : (deliver r s).data = none := rfl
@[simp] theorem deliver_count (r : Result) (s : State) : (deliver r s).count = none := rfl
@[simp] theorem deliver_byteIdx (r : Result) (s : State) : (deliver r s).byteIdx = none := rfl
@[simp] theorem deliver_bitIdx (r : Result) (s : State) : (deliver r s).bitIdx = none := rfl
@[simp] theorem deliver_acc (r : Result) (s : State) : (deliver r s).acc = none := rfl
@[simp] theorem deliver_out (r : Result) (s : State) : (deliver r s).out = none := rfl
@[simp] theorem deliver_callResult (r : Result) (s : State) : (deliver r s).callResult = none := rfl
@[simp] theorem deliver_pending (r : Result) (s : State) : (deliver r s).pending = s.pending := rfl
@[simp] theorem deliver_env (r : Result) (s : State) : (deliver r s).env = s.env := rfl
@[simp] theorem deliver_draws (r : Result) (s : State) : (deliver r s).draws = s.draws := rfl
@[simp] theorem deliver_trace (r : Result) (s : State) : (deliver r s).trace = s.trace := rfl
@[simp] theorem deliver_results (r : Result) (s : State) : (deliver r s).results = s.results ++ [r] := rfl

/-! ## The environment's answer is taken -/

@[simp] theorem State.popAnswer_params (s : State) : s.popAnswer.params = s.params := by
  unfold State.popAnswer; split <;> rfl
@[simp] theorem State.popAnswer_baud (s : State) : s.popAnswer.baud = s.baud := by
  unfold State.popAnswer; split <;> rfl
@[simp] theorem State.popAnswer_phase (s : State) : s.popAnswer.phase = s.phase := by
  unfold State.popAnswer; split <;> rfl
@[simp] theorem State.popAnswer_savedBaud (s : State) : s.popAnswer.savedBaud = s.savedBaud := by
  unfold State.popAnswer; split <;> rfl
@[simp] theorem State.popAnswer_txBuf (s : State) : s.popAnswer.txBuf = s.txBuf := by
  unfold State.popAnswer; split <;> rfl
@[simp] theorem State.popAnswer_rxBuf (s : State) : s.popAnswer.rxBuf = s.rxBuf := by
  unfold State.popAnswer; split <;> rfl
@[simp] theorem State.popAnswer_data (s : State) : s.popAnswer.data = s.data := by
  unfold State.popAnswer; split <;> rfl
@[simp] theorem State.popAnswer_count (s : State) : s.popAnswer.count = s.count := by
  unfold State.popAnswer; split <;> rfl
@[simp] theorem State.popAnswer_byteIdx (s : State) : s.popAnswer.byteIdx = s.byteIdx := by
  unfold State.popAnswer; split <;> rfl
@[simp] theorem State.popAnswer_bitIdx (s : State) : s.popAnswer.bitIdx = s.bitIdx := by
  unfold State.popAnswer; split <;> rfl
@[simp] theorem State.popAnswer_acc (s : State) : s.popAnswer.acc = s.acc := by
  unfold State.popAnswer; split <;> rfl
@[simp] theorem State.popAnswer_out (s : State) : s.popAnswer.out = s.out := by
  unfold State.popAnswer; split <;> rfl
@[simp] theorem State.popAnswer_callResult (s : State) : s.popAnswer.callResult = s.callResult := by
  unfold State.popAnswer; split <;> rfl
@[simp] theorem State.popAnswer_pending (s : State) : s.popAnswer.pending = s.pending := by
  unfold State.popAnswer; split <;> rfl
@[simp] theorem State.popAnswer_trace (s : State) : s.popAnswer.trace = s.trace := by
  unfold State.popAnswer; split <;> rfl
@[simp] theorem State.popAnswer_results (s : State) : s.popAnswer.results = s.results := by
  unfold State.popAnswer; split <;> rfl

theorem State.answer_cons {s : State} {a : Answer} {l : List Answer} (h : s.env = a :: l) : s.answer = a := by
  simp [State.answer, h]

theorem State.popAnswer_cons {s : State} {a : Answer} {l : List Answer} (h : s.env = a :: l) :
    s.popAnswer = { s with env := l } := by
  simp [State.popAnswer, h]

/-! ## A command is fetched -/

@[simp] theorem State.afterFetch_params (s : State) : s.afterFetch.params = s.params := by
  unfold State.afterFetch; split <;> rfl
@[simp] theorem State.afterFetch_baud (s : State) : s.afterFetch.baud = s.baud := by
  unfold State.afterFetch; split <;> rfl
@[simp] theorem State.afterFetch_phase (s : State) : s.afterFetch.phase = s.phase := by
  unfold State.afterFetch; split <;> rfl
@[simp] theorem State.afterFetch_savedBaud (s : State) : s.afterFetch.savedBaud = s.savedBaud := by
  unfold State.afterFetch; split <;> rfl
@[simp] theorem State.afterFetch_txBuf (s : State) : s.afterFetch.txBuf = s.txBuf := by
  unfold State.afterFetch; split <;> rfl
@[simp] theorem State.afterFetch_rxBuf (s : State) : s.afterFetch.rxBuf = s.rxBuf := by
  unfold State.afterFetch; split <;> rfl
@[simp] theorem State.afterFetch_data (s : State) : s.afterFetch.data = s.data := by
  unfold State.afterFetch; split <;> rfl
@[simp] theorem State.afterFetch_count (s : State) : s.afterFetch.count = s.count := by
  unfold State.afterFetch; split <;> rfl
@[simp] theorem State.afterFetch_byteIdx (s : State) : s.afterFetch.byteIdx = s.byteIdx := by
  unfold State.afterFetch; split <;> rfl
@[simp] theorem State.afterFetch_bitIdx (s : State) : s.afterFetch.bitIdx = s.bitIdx := by
  unfold State.afterFetch; split <;> rfl
@[simp] theorem State.afterFetch_acc (s : State) : s.afterFetch.acc = s.acc := by
  unfold State.afterFetch; split <;> rfl
@[simp] theorem State.afterFetch_out (s : State) : s.afterFetch.out = s.out := by
  unfold State.afterFetch; split <;> rfl
@[simp] theorem State.afterFetch_callResult (s : State) : s.afterFetch.callResult = s.callResult := by
  unfold State.afterFetch; split <;> rfl
@[simp] theorem State.afterFetch_env (s : State) : s.afterFetch.env = s.env := by
  unfold State.afterFetch; split <;> rfl
@[simp] theorem State.afterFetch_draws (s : State) : s.afterFetch.draws = s.draws := by
  unfold State.afterFetch; split <;> rfl
@[simp] theorem State.afterFetch_trace (s : State) : s.afterFetch.trace = s.trace := by
  unfold State.afterFetch; split <;> rfl
@[simp] theorem State.afterFetch_results (s : State) : s.afterFetch.results = s.results := by
  unfold State.afterFetch; split <;> rfl

theorem State.afterFetch_idle {s : State} (h : s.phase = .idle) :
    s.afterFetch = { s with pending := s.pending.tail } := by
  simp [State.afterFetch, h]

theorem State.afterFetch_inFlight {s : State} (h : s.phase ≠ .idle) : s.afterFetch = s := by
  unfold State.afterFetch; split
  · contradiction
  · rfl

/-! ## WRITE moves to the next bit of its frame -/

@[simp] theorem State.nextFrameBit_params (s : State) (k : Nat) (i : Fin 8) : (s.nextFrameBit k i).params = s.params := by
  unfold State.nextFrameBit; split <;> rfl
@[simp] theorem State.nextFrameBit_baud (s : State) (k : Nat) (i : Fin 8) : (s.nextFrameBit k i).baud = s.baud := by
  unfold State.nextFrameBit; split <;> rfl
@[simp] theorem State.nextFrameBit_phase (s : State) (k : Nat) (i : Fin 8) : (s.nextFrameBit k i).phase = s.phase := by
  unfold State.nextFrameBit; split <;> rfl
@[simp] theorem State.nextFrameBit_savedBaud (s : State) (k : Nat) (i : Fin 8) : (s.nextFrameBit k i).savedBaud = s.savedBaud := by
  unfold State.nextFrameBit; split <;> rfl
@[simp] theorem State.nextFrameBit_txBuf (s : State) (k : Nat) (i : Fin 8) : (s.nextFrameBit k i).txBuf = s.txBuf := by
  unfold State.nextFrameBit; split <;> rfl
@[simp] theorem State.nextFrameBit_rxBuf (s : State) (k : Nat) (i : Fin 8) : (s.nextFrameBit k i).rxBuf = s.rxBuf := by
  unfold State.nextFrameBit; split <;> rfl
@[simp] theorem State.nextFrameBit_data (s : State) (k : Nat) (i : Fin 8) : (s.nextFrameBit k i).data = s.data := by
  unfold State.nextFrameBit; split <;> rfl
@[simp] theorem State.nextFrameBit_count (s : State) (k : Nat) (i : Fin 8) : (s.nextFrameBit k i).count = s.count := by
  unfold State.nextFrameBit; split <;> rfl
@[simp] theorem State.nextFrameBit_acc (s : State) (k : Nat) (i : Fin 8) : (s.nextFrameBit k i).acc = s.acc := by
  unfold State.nextFrameBit; split <;> rfl
@[simp] theorem State.nextFrameBit_out (s : State) (k : Nat) (i : Fin 8) : (s.nextFrameBit k i).out = s.out := by
  unfold State.nextFrameBit; split <;> rfl
@[simp] theorem State.nextFrameBit_pending (s : State) (k : Nat) (i : Fin 8) : (s.nextFrameBit k i).pending = s.pending := by
  unfold State.nextFrameBit; split <;> rfl
@[simp] theorem State.nextFrameBit_env (s : State) (k : Nat) (i : Fin 8) : (s.nextFrameBit k i).env = s.env := by
  unfold State.nextFrameBit; split <;> rfl
@[simp] theorem State.nextFrameBit_draws (s : State) (k : Nat) (i : Fin 8) : (s.nextFrameBit k i).draws = s.draws := by
  unfold State.nextFrameBit; split <;> rfl
@[simp] theorem State.nextFrameBit_trace (s : State) (k : Nat) (i : Fin 8) : (s.nextFrameBit k i).trace = s.trace := by
  unfold State.nextFrameBit; split <;> rfl
@[simp] theorem State.nextFrameBit_results (s : State) (k : Nat) (i : Fin 8) : (s.nextFrameBit k i).results = s.results := by
  unfold State.nextFrameBit; split <;> rfl

theorem clearTransients_idem (s : State) : s.clearTransients.clearTransients = s.clearTransients := rfl

end Sys2Proof.Machine
end

