-- ==== Sys2Proof/Laws/Ops.lean ====
section
/-! SUPPORT. Laws/Ops.lean: for each shared operation one lemma that says everything it can do; a proof cites it
instead of unfolding the operation. -/

namespace Sys2Proof.Machine

/-- `need` answers a next state only when the register holds a value. -/
theorem need_next {α : Type} {x : Option α} {r : Reg} {k : α → StepOutcome} {t : State}
    (h : need x r k = .next t) : ∃ a, x = some a ∧ k a = .next t := by
  cases x with
  | none => simp [need] at h
  | some a => exact ⟨a, rfl, h⟩

@[simp] theorem need_some {α : Type} (a : α) (r : Reg) (k : α → StepOutcome) : need (some a) r k = k a := rfl

@[simp] theorem need_none {α : Type} (r : Reg) (k : α → StepOutcome) : need none r k = .fault (.noValue r) := rfl

/-- SetBaud either returns, with BAUD written and the call recorded, or fails, with the failure recorded. -/
theorem setBaud_cases (r : Nat) (ok bad : State → State) (s : State) :
    (∃ bs, s.answer = .ret bs ∧
      setBaud r ok bad s = ok ((s.popAnswer.record (.setBaud s.params.handle r)).withBaud r)) ∨
    (s.answer = .fail ∧
      setBaud r ok bad s = bad (s.popAnswer.record (.failed s.params.handle (.setBaud r)))) := by
  unfold setBaud
  cases h : s.answer with
  | ret bs => exact .inl ⟨bs, rfl, rfl⟩
  | fail => exact .inr ⟨rfl, rfl⟩

/-- TxWrite either returns or fails, and is recorded either way. -/
theorem txWrite_cases (buf : List Byte) (ok bad : State → State) (s : State) :
    (∃ bs, s.answer = .ret bs ∧ txWrite buf ok bad s = ok (s.popAnswer.record (.txWrite s.params.handle buf))) ∨
    (s.answer = .fail ∧
      txWrite buf ok bad s = bad (s.popAnswer.record (.failed s.params.handle (.txWrite buf)))) := by
  unfold txWrite
  cases h : s.answer with
  | ret bs => exact .inl ⟨bs, rfl, rfl⟩
  | fail => exact .inr ⟨rfl, rfl⟩

/-- RxRead returns at most `n` bytes, or fails, and is recorded either way. -/
theorem rxRead_cases (n : Nat) (ok : List Byte → State → State) (bad : State → State) (s : State) :
    (∃ bs, s.answer = .ret bs ∧
      rxRead n ok bad s = ok (bs.take n) (s.popAnswer.record (.rxRead s.params.handle n (bs.take n)))) ∨
    (s.answer = .fail ∧
      rxRead n ok bad s = bad (s.popAnswer.record (.failed s.params.handle (.rxRead n)))) := by
  unfold rxRead
  cases h : s.answer with
  | ret bs => exact .inl ⟨bs, rfl, rfl⟩
  | fail => exact .inr ⟨rfl, rfl⟩

/-- An error is delivered with TXBUF and RXBUF as its payload. -/
theorem raise_next {kind : ErrorKind} {s t : State} (h : raise kind s = .next t) :
    ∃ tx rx, s.txBuf = some tx ∧ s.rxBuf = some rx ∧ t = deliver (.err kind ⟨tx, rx⟩) s := by
  obtain ⟨tx, htx, h⟩ := need_next h
  obtain ⟨rx, hrx, h⟩ := need_next h
  exact ⟨tx, rx, htx, hrx, by simpa using h.symm⟩

/-- A command is accepted only at IDLE. -/
theorem accept_next {f : State → State} {s t : State} (h : accept f s = .next t) :
    s.phase = .idle ∧ t = f s := by
  unfold accept at h
  split at h
  · exact ⟨‹_›, by simpa using h.symm⟩
  · simp at h

/-- Passing a failure on is delivering TransportFault. -/
@[simp] theorem deliverTransportFault_eq (s : State) : deliverTransportFault s = deliver .transportFault s := rfl

/-- When the restoring SetBaud fails, TransportFault is delivered with BAUD free. -/
@[simp] theorem restoreFails_eq (s : State) : restoreFails s = deliver .transportFault s.freeBaud := rfl

/-- The delivered state is quiet. -/
theorem deliver_quiet (r : Result) (s : State) : Quiet (deliver r s) := ⟨rfl, rfl⟩

/-- A slot row answers only at its step, for its byte, after its verdict. -/
theorem slotReady_iff {e : Byte} {r : SlotResult} {s : State} :
    slotReady e r s = true ↔
      s.phase = .read .decode ∧ (∃ rest, s.rxBuf = some (e :: rest)) ∧ s.callResult = some (.slot r) := by
  unfold slotReady
  rcases hr : s.rxBuf with _ | _ | ⟨b, rest⟩ <;> simp [and_assoc]

/-- A run of no steps. -/
@[simp] theorem runs_zero {s t : State} : Runs 0 s t ↔ s = t := by
  change (Host.Outcome.next s : StepOutcome) = .next t ↔ s = t
  simp

/-- A machine's run begins with its first step. -/
theorem core_run_next {M : Host.Core} {s u : M.State} (k : Nat) (h : M.step s = .next u) :
    M.run (k + 1) s = M.run k u := by
  simp [Host.Core.run, h]

/-- A run stops at the first fault. -/
theorem core_run_fault {M : Host.Core} {s : M.State} {f : M.Fault} (k : Nat) (h : M.step s = .fault f) :
    M.run (k + 1) s = .fault f := by
  simp [Host.Core.run, h]

/-- A run stops at the first refusal. -/
theorem core_run_refused {M : Host.Core} {s : M.State} {r : M.Refusal} (k : Nat) (h : M.step s = .refused r) :
    M.run (k + 1) s = .refused r := by
  simp [Host.Core.run, h]

/-- A run of one step more is a step and a run. -/
theorem runs_succ {k : Nat} {s t : State} : Runs (k + 1) s t ↔ ∃ u, step s = .next u ∧ Runs k u t := by
  unfold Runs
  cases h : step s with
  | next u => rw [core_run_next (M := Sys2Proof.core) k h]; simp
  | fault f => rw [core_run_fault (M := Sys2Proof.core) k h]; simp
  | refused r => rw [core_run_refused (M := Sys2Proof.core) k h]; simp

/-- Runs compose. -/
theorem runs_add {j k : Nat} {s t u : State} (h₁ : Runs j s t) (h₂ : Runs k t u) : Runs (j + k) s u := by
  induction j generalizing s with
  | zero => simpa [runs_zero.mp h₁] using h₂
  | succ j ih =>
    obtain ⟨v, hv, h₁⟩ := runs_succ.mp h₁
    rw [Nat.add_right_comm]
    exact runs_succ.mpr ⟨v, hv, ih h₁⟩

end Sys2Proof.Machine
end

