-- ==== Sys2Proof/Laws/PerInstr.lean ====
section
/-! SUPPORT. Laws/PerInstr.lean: for each instruction, that its encoding carries the fixed bits of its row of
opcode_table.json, under the default parameters, which the table writes out. -/

namespace Sys2Proof.Laws.FitsTable

/-- The bits of a code, as the table numbers them. -/
def bits : Code → Nat
  | .cmd w => w.op.toNat
  | .txpat _ b => b.toNat
  | .rxslot b => b.toNat
  | .rxrst b => b.toNat

/-- The columns `mask` and `match` of the row; none for the rows to which the table gives no encoding. -/
def row : Instr → Option (Nat × Nat)
  | .reset => some (0x3, 0x0)
  | .write _ => some (0x3, 0x1)
  | .read _ => some (0x3, 0x2)
  | .cmdReserved => some (0x3, 0x3)
  | .encodeBit _ => none
  | .decodeSlot _ => none
  | .serialize _ => none
  | .txpOne => some (0xFF, 0xFF)
  | .txpZero => some (0xFF, 0x80)
  | .txpReset => some (0xFF, 0xF0)
  | .rxslotBit1 _ => some (0xF1, 0xF1)
  | .rxslotBit0 _ => some (0xF1, 0xF0)
  | .rxslotBad7 _ => some (0x80, 0x00)
  | .rxslotBad6 _ => some (0xC0, 0x80)
  | .rxslotBad5 _ => some (0xE0, 0xC0)
  | .rxslotBad4 _ => some (0xF0, 0xE0)
  | .rxrstNoPresence => some (0xFF, 0xF0)
  | .rxrstPresence _ => none

/-- The instruction's code, if it has one, masked by its row's mask is its row's match. -/
def Statement (i : Instr) : Prop :=
  ∀ c mask word, encode Config.Params.default i = some c → row i = some (mask, word) → bits c &&& mask = word

/-- An instruction whose code and row are known fits when they do. -/
theorem fits {i : Instr} {c : Code} {mask word : Nat} (hc : encode Config.Params.default i = some c)
    (hr : row i = some (mask, word)) (h : bits c &&& mask = word) : Statement i := by
  intro c' mask' word' hc' hr'
  rw [hc] at hc'
  rw [hr] at hr'
  cases hc'
  cases hr'
  exact h

/-- A row without an encoding asks for nothing. -/
theorem fits_none {i : Instr} (hr : row i = none) : Statement i := by
  intro c mask word _ h
  rw [hr] at h
  cases h

theorem reset : Statement .reset := fits rfl rfl rfl
theorem write (data : List Byte) : Statement (.write data) := fits rfl rfl (show (0b01#2).toNat &&& 0x3 = 0x1 from rfl)
theorem read (count : Nat) : Statement (.read count) := fits rfl rfl (show (0b10#2).toNat &&& 0x3 = 0x2 from rfl)
theorem cmdReserved : Statement .cmdReserved := fits rfl rfl rfl
theorem encodeBit (bit : ProtocolBit) : Statement (.encodeBit bit) := fits_none rfl
theorem decodeSlot (e : Byte) : Statement (.decodeSlot e) := fits_none rfl
theorem serialize (b : Byte) : Statement (.serialize b) := fits_none rfl
theorem txpOne : Statement .txpOne := fits rfl rfl rfl
theorem txpZero : Statement .txpZero := fits rfl rfl rfl
theorem txpReset : Statement .txpReset := fits rfl rfl rfl
theorem rxslotBit1 (ign : BitVec 3) : Statement (.rxslotBit1 ign) := fits rfl rfl (by revert ign; decide)
theorem rxslotBit0 (ign : BitVec 3) : Statement (.rxslotBit0 ign) := fits rfl rfl (by revert ign; decide)
theorem rxslotBad7 (rest : BitVec 7) : Statement (.rxslotBad7 rest) := fits rfl rfl (by revert rest; decide)
theorem rxslotBad6 (rest : BitVec 6) : Statement (.rxslotBad6 rest) := fits rfl rfl (by revert rest; decide)
theorem rxslotBad5 (rest : BitVec 5) : Statement (.rxslotBad5 rest) := fits rfl rfl (by revert rest; decide)
theorem rxslotBad4 (rest : BitVec 4) : Statement (.rxslotBad4 rest) := fits rfl rfl (by revert rest; decide)
theorem rxrstNoPresence : Statement .rxrstNoPresence := fits rfl rfl rfl
theorem rxrstPresence (e : Byte) : Statement (.rxrstPresence e) := fits_none rfl

end Sys2Proof.Laws.FitsTable
end

