-- ==== Sys2Proof/Laws/Step.lean ====
section
/-! SUPPORT. Laws/Step.lean: what a step is at each position of the sequencer (spec/10_state.md R26), said once; a proof
about steps cites these equations instead of unfolding the fetch. -/

namespace Sys2Proof.Machine

variable {s : State}

/-! ## IDLE -/

theorem step_idle_wait (h : s.phase = .idle) (hp : s.pending = []) : step s = .next s := by
  simp [step, fetch, h, hp, runMicro]

theorem step_idle_command {w : CmdWord} {ws : List CmdWord} (h : s.phase = .idle) (hp : s.pending = w :: ws) :
    step s = exec (decodeCmd w) { s with pending := ws } := by
  simp [step, fetch, h, hp, State.afterFetch_idle h]

/-! ## RESET -/

theorem step_reset_save (h : s.phase = .reset .save) :
    step s = .next (setBaud s.params.resetBaud (fun s => s.goto (.reset .transmit))
      (fun s => (s.withBaud s.params.resetBaud).goto (.reset .restoreFailed)) { s with savedBaud := some s.baud }) := by
  simp [step, fetch, h, runMicro, saveBaud]

theorem step_reset_transmit (h : s.phase = .reset .transmit) :
    step s = .next (txWrite [s.params.resetPattern] (fun s => s.goto (.reset .receive))
      (fun s => s.goto (.reset .restoreFailed)) { s with txBuf := some [s.params.resetPattern] }) := by
  simp [step, fetch, h, fetchPattern, decodeTxpat, exec, execTxpReset, State.afterFetch_inFlight]

theorem step_reset_receive (h : s.phase = .reset .receive) :
    step s = .next (rxRead 1 (fun rx s => { s.goto (.reset .restore) with rxBuf := some rx })
      (fun s => s.goto (.reset .restoreFailed)) s) := by
  simp [step, fetch, h, runMicro, receiveEcho]

theorem step_reset_restore {b : Nat} (h : s.phase = .reset .restore) (hb : s.savedBaud = some b) :
    step s = .next (setBaud b (fun s => s.goto (.reset .decide)) restoreFails s) := by
  simp [step, fetch, h, runMicro, restoreBaud, hb]

theorem step_reset_restoreFailed {b : Nat} (h : s.phase = .reset .restoreFailed) (hb : s.savedBaud = some b) :
    step s = .next (setBaud b deliverTransportFault restoreFails s) := by
  simp [step, fetch, h, runMicro, restoreAfterFailure, hb]

theorem step_reset_decide {tx rx : List Byte} (h : s.phase = .reset .decide) (ht : s.txBuf = some tx)
    (hr : s.rxBuf = some rx) (hl : rx.length ≤ 1) :
    step s = .next (deliver
      (if rx = [] ∨ rx = [s.params.resetPattern] then .err .noPresence ⟨tx, rx⟩ else .ok) s) := by
  rcases rx with _ | ⟨e, _ | ⟨_, _⟩⟩
  · simp [step, fetch, h, fetchEcho, hr, runMicro, raise, ht]
  · by_cases he : e = s.params.resetPattern
    · subst he
      simp [step, fetch, h, fetchEcho, hr, decodeRxrst, exec, execRxrstNoPresence, resetVerdict,
        State.afterFetch_inFlight, noPresence, raise, ht]
    · simp [step, fetch, h, fetchEcho, hr, decodeRxrst, exec, execRxrstPresence, resetVerdict,
        State.afterFetch_inFlight, noPresence, he]
  · simp at hl

/-! ## WRITE -/

/-- The position moves to the next bit, after bit 7 to the next byte. -/
theorem nextFrameBit_eq {k : Nat} {i : Fin 8} {tx : List Byte} (hk : s.byteIdx = some k) :
    { s with txBuf := some tx }.nextFrameBit k i = { s with
      txBuf := some tx, bitIdx := some (i + 1), byteIdx := some (if i = 7 then k + 1 else k),
      callResult := if i = 7 then none else s.callResult } := by
  unfold State.nextFrameBit
  fin_cases i <;> simp [nextBit, hk]

theorem step_write_start (h : s.phase = .write .start) :
    step s = .next { s.goto (.write .build) with txBuf := some [], byteIdx := some 0, bitIdx := some 0 } := by
  simp [step, fetch, h, runMicro, startFrame]

/-- A byte of DATA is left: SERIALIZE is called on it. -/
theorem step_write_call {d : List Byte} {k : Nat} {i : Fin 8} {b : Byte} (h : s.phase = .write .build)
    (hd : s.data = some d) (hk : s.byteIdx = some k) (hi : s.bitIdx = some i) (hb : d[k]? = some b)
    (hc : s.callResult = none) : step s = .next (s.returns (.patterns (serialize s.params b))) := by
  simp [step, fetch, h, fetchBuild, hd, hk, hi, hb, hc, exec, execSerialize, State.afterFetch_inFlight]

/-- A pattern of that byte is left: it joins the frame. -/
theorem step_write_pattern {d tx : List Byte} {k : Nat} {i : Fin 8} {b : Byte} (h : s.phase = .write .build)
    (hd : s.data = some d) (hk : s.byteIdx = some k) (hi : s.bitIdx = some i) (hb : d[k]? = some b)
    (hc : s.callResult = some (.patterns (serialize s.params b))) (ht : s.txBuf = some tx) :
    step s = .next { s with
      txBuf := some (tx ++ [encodeBit s.params (bitOf b i)]), bitIdx := some (i + 1),
      byteIdx := some (if i = 7 then k + 1 else k), callResult := if i = 7 then none else s.callResult } := by
  rw [← nextFrameBit_eq hk]
  have hw : (serialize s.params b)[i.val]? = some (encodeBit s.params (bitOf b i)) := by fin_cases i <;> rfl
  by_cases h1 : encodeBit s.params (bitOf b i) = Config.onePattern
  · simp [step, fetch, h, fetchBuild, hd, hk, hi, hb, hc, hw, fetchPattern, decodeTxpat, exec, execTxpOne,
      State.afterFetch_inFlight, appendPattern, ht, h1]
  · have h0 : encodeBit s.params (bitOf b i) = s.params.zeroPattern := by
      unfold encodeBit at h1 ⊢
      split <;> simp_all
    rw [h0] at h1 hw
    simp [step, fetch, h, fetchBuild, hd, hk, hi, hb, hc, hw, fetchPattern, decodeTxpat, exec, execTxpZero,
      State.afterFetch_inFlight, appendPattern, ht, h1, h0]

theorem step_write_end {d tx : List Byte} {k : Nat} {i : Fin 8} (h : s.phase = .write .build)
    (hd : s.data = some d) (hk : s.byteIdx = some k) (hi : s.bitIdx = some i) (hb : d[k]? = none)
    (ht : s.txBuf = some tx) :
    step s = .next (if tx = [] then deliver .ok s else s.goto (.write .transmit)) := by
  simp [step, fetch, h, fetchBuild, hd, hk, hi, hb, runMicro, endFrame, ht, List.isEmpty_iff]

theorem step_write_transmit {tx : List Byte} (h : s.phase = .write .transmit) (ht : s.txBuf = some tx) :
    step s = .next (txWrite tx (fun s => s.goto (.write .receive)) deliverTransportFault s) := by
  simp [step, fetch, h, runMicro, sendFrame, ht]

theorem step_write_receive {tx : List Byte} (h : s.phase = .write .receive) (ht : s.txBuf = some tx) :
    step s = .next (rxRead tx.length (fun rx s => { s.goto (.write .compare) with rxBuf := some rx })
      deliverTransportFault s) := by
  simp [step, fetch, h, runMicro, receiveFrame, ht]

theorem step_write_compare {tx rx : List Byte} (h : s.phase = .write .compare) (ht : s.txBuf = some tx)
    (hr : s.rxBuf = some rx) :
    step s = .next (deliver (if rx = tx then .ok else .err .collision ⟨tx, rx⟩) s) := by
  by_cases he : rx = tx
  · subst he
    simp [step, fetch, h, runMicro, compareFrame, ht, hr, collision]
  · simp [step, fetch, h, runMicro, compareFrame, ht, hr, collision, raise, he]

/-! ## READ -/

theorem step_read_start (h : s.phase = .read .start) :
    step s = .next { s.goto (.read .byte) with out := some [], byteIdx := some 0 } := by
  simp [step, fetch, h, runMicro, startRead]

theorem step_read_byte {n k : Nat} {o : List Byte} (h : s.phase = .read .byte) (hn : s.count = some n)
    (hk : s.byteIdx = some k) (ho : s.out = some o) :
    step s = .next (if k < n then { s.goto (.read .transmit) with acc := some 0, bitIdx := some 0 }
      else deliver (.okBytes o) s) := by
  simp [step, fetch, h, runMicro, nextByte, hn, hk, ho]

theorem step_read_call (h : s.phase = .read .transmit) (hc : s.callResult = none) :
    step s = .next (s.returns (.pattern Config.onePattern)) := by
  simp [step, fetch, h, hc, exec, execEncodeBit, encodeBit, State.afterFetch_inFlight]

theorem step_read_transmit (h : s.phase = .read .transmit) (hc : s.callResult = some (.pattern Config.onePattern)) :
    step s = .next (txWrite [Config.onePattern] (fun s => s.goto (.read .receive)) deliverTransportFault
      { s with txBuf := some [Config.onePattern], callResult := none }) := by
  simp [step, fetch, h, hc, fetchPattern, decodeTxpat, exec, execTxpOne, transmitSlot, State.afterFetch_inFlight]

theorem step_read_receive (h : s.phase = .read .receive) :
    step s = .next (rxRead 1 (fun rx s => { s.goto (.read .decode) with rxBuf := some rx })
      deliverTransportFault s) := by
  simp [step, fetch, h, runMicro, receiveSlot]

theorem step_read_empty {tx : List Byte} (h : s.phase = .read .decode) (ht : s.txBuf = some tx)
    (hr : s.rxBuf = some []) : step s = .next (deliver (.err .symbolError ⟨tx, []⟩) s) := by
  simp [step, fetch, h, fetchSlot, hr, runMicro, raise, ht]

theorem step_read_decode {e : Byte} {rest : List Byte} (h : s.phase = .read .decode)
    (hr : s.rxBuf = some (e :: rest)) (hc : s.callResult = none) :
    step s = .next (s.returns (.slot (decodeSlot e))) := by
  simp [step, fetch, h, fetchSlot, hr, hc, exec, execDecodeSlot, State.afterFetch_inFlight]

/-- The row that a byte is decoded to is the row of that byte. -/
theorem slotRow_byte (e : Byte) :
    (∃ ign, decodeSlot e = .bit true ∧ slotRow (decodeSlot e) e = .rxslotBit1 ign ∧ e = bit1Byte ign) ∨
    (∃ ign, decodeSlot e = .bit false ∧ slotRow (decodeSlot e) e = .rxslotBit0 ign ∧ e = bit0Byte ign) ∨
    (decodeSlot e = .malformed ∧
      ((∃ r, slotRow .malformed e = .rxslotBad7 r ∧ e = bad7Byte r) ∨
       (∃ r, slotRow .malformed e = .rxslotBad6 r ∧ e = bad6Byte r) ∨
       (∃ r, slotRow .malformed e = .rxslotBad5 r ∧ e = bad5Byte r) ∨
       (∃ r, slotRow .malformed e = .rxslotBad4 r ∧ e = bad4Byte r))) := by
  have h1 : ∀ e : Byte, decodeSlot e = .bit true → e = bit1Byte (e.extractLsb' 1 3) := by decide
  have h0 : ∀ e : Byte, decodeSlot e = .bit false → e = bit0Byte (e.extractLsb' 1 3) := by decide
  have hb : ∀ e : Byte, decodeSlot e = .malformed →
      (e.getLsbD 7 = false → e = bad7Byte (e.extractLsb' 0 7)) ∧
      (e.getLsbD 7 = true → e.getLsbD 6 = false → e = bad6Byte (e.extractLsb' 0 6)) ∧
      (e.getLsbD 7 = true → e.getLsbD 6 = true → e.getLsbD 5 = false → e = bad5Byte (e.extractLsb' 0 5)) ∧
      (e.getLsbD 7 = true → e.getLsbD 6 = true → e.getLsbD 5 = true → e = bad4Byte (e.extractLsb' 0 4)) := by decide
  rcases hd : decodeSlot e with (_ | _) | _
  · exact .inr (.inl ⟨_, rfl, rfl, h0 e hd⟩)
  · exact .inl ⟨_, rfl, rfl, h1 e hd⟩
  · obtain ⟨b7, b6, b5, b4⟩ := hb e hd
    refine .inr (.inr ⟨rfl, ?_⟩)
    rcases h7 : e.getLsbD 7
    · exact .inl ⟨_, by simp only [slotRow, h7, eq_self, if_true], b7 h7⟩
    rcases h6 : e.getLsbD 6
    · exact .inr (.inl ⟨_, by simp only [slotRow, h7, h6, eq_self, reduceCtorEq, if_true, if_false], b6 h7 h6⟩)
    rcases h5 : e.getLsbD 5
    · exact .inr (.inr (.inl ⟨_, by simp only [slotRow, h7, h6, h5, eq_self, reduceCtorEq, if_true, if_false], b5 h7 h6 h5⟩))
    · exact .inr (.inr (.inr ⟨_, by simp only [slotRow, h7, h6, h5, reduceCtorEq, if_false], b4 h7 h6 h5⟩))

theorem step_read_bit {e : Byte} {rest : List Byte} {v : ProtocolBit} (h : s.phase = .read .decode)
    (hr : s.rxBuf = some (e :: rest)) (hd : decodeSlot e = .bit v) (hc : s.callResult = some (.slot (.bit v))) :
    step s = acceptBit v s := by
  have hs : step s = exec (slotRow (.bit v) e) s := by
    simp [step, fetch, h, fetchSlot, hr, hc, State.afterFetch_inFlight]
  have hready : slotReady e (.bit v) s = true := slotReady_iff.mpr ⟨h, ⟨rest, hr⟩, hc⟩
  rcases slotRow_byte e with ⟨ign, he, hrow, hbyte⟩ | ⟨ign, he, hrow, hbyte⟩ | ⟨he, -⟩
  · obtain rfl : v = true := by rw [hd] at he; simpa using he
    rw [hs, ← hd, hrow]
    simp only [exec, execRxslotBit1, ← hbyte, slotBit, hready, if_true]
  · obtain rfl : v = false := by rw [hd] at he; simpa using he
    rw [hs, ← hd, hrow]
    simp only [exec, execRxslotBit0, ← hbyte, slotBit, hready, if_true]
  · simp [hd] at he

theorem step_read_malformed {e : Byte} {rest tx : List Byte} (h : s.phase = .read .decode)
    (hr : s.rxBuf = some (e :: rest)) (ht : s.txBuf = some tx) (hd : decodeSlot e = .malformed)
    (hc : s.callResult = some (.slot .malformed)) :
    step s = .next (deliver (.err .symbolError ⟨tx, e :: rest⟩) s) := by
  have hs : step s = exec (slotRow .malformed e) s := by
    simp [step, fetch, h, fetchSlot, hr, hc, State.afterFetch_inFlight]
  have hready : slotReady e .malformed s = true := slotReady_iff.mpr ⟨h, ⟨rest, hr⟩, hc⟩
  have hraise : raise .symbolError s = .next (deliver (.err .symbolError ⟨tx, e :: rest⟩) s) := by
    simp [raise, ht, hr]
  rcases slotRow_byte e with ⟨ign, he, -⟩ | ⟨ign, he, -⟩ | ⟨-, ⟨r, hrow, hbyte⟩ | ⟨r, hrow, hbyte⟩ | ⟨r, hrow, hbyte⟩ | ⟨r, hrow, hbyte⟩⟩
  · simp [hd] at he
  · simp [hd] at he
  all_goals
    rw [hs, hrow, ← hraise]
    simp only [exec, execRxslotBad7, execRxslotBad6, execRxslotBad5, execRxslotBad4, ← hbyte, slotBad, hready, if_true]

/-- The bit goes to ACC; the position moves on. -/
theorem acceptBit_eq {k : Nat} {i : Fin 8} {a : Byte} {o : List Byte} (v : ProtocolBit) (ha : s.acc = some a)
    (hi : s.bitIdx = some i) (hk : s.byteIdx = some k) (ho : s.out = some o) :
    acceptBit v s = .next { s with
      phase := if i = 7 then .read .byte else .read .transmit
      acc := some (placeBit a v i)
      bitIdx := some (if i = 7 then 7 else i + 1)
      byteIdx := some (if i = 7 then k + 1 else k)
      out := some (if i = 7 then o ++ [placeBit a v i] else o)
      callResult := none } := by
  unfold acceptBit
  simp only [ha, hi, hk, ho, need_some]
  fin_cases i <;> simp [nextBit, State.goto, hk, ho, hi]

end Sys2Proof.Machine
end

