-- ==== Sys2Proof/Laws/Stepped.lean ====
section
/-! SUPPORT. Laws/Stepped.lean: everything a step can do, from any state, said once: the relation Stepped, and the
inversion of `step`. A proof about every step is a case split on it. -/

namespace Sys2Proof.Machine

/-- `Stepped s t`: the ways in which a step of `s` answers the next state `t`. -/
inductive Stepped (s : State) : State → Prop where
  | wait (h : s.phase = .idle) (hp : s.pending = []) : Stepped s s
  | acceptReset {w : CmdWord} {ws : List CmdWord} (h : s.phase = .idle) (hp : s.pending = w :: ws) :
      Stepped s { s with pending := ws, phase := .reset .save }
  | acceptWrite {w : CmdWord} {ws : List CmdWord} (h : s.phase = .idle) (hp : s.pending = w :: ws) :
      Stepped s { s with pending := ws, phase := .write .start, data := some w.data }
  | acceptRead {w : CmdWord} {ws : List CmdWord} (h : s.phase = .idle) (hp : s.pending = w :: ws) :
      Stepped s { s with pending := ws, phase := .read .start, count := some w.count }
  | saveBaud (h : s.phase = .reset .save) :
      Stepped s (setBaud s.params.resetBaud (fun s => s.goto (.reset .transmit))
        (fun s => (s.withBaud s.params.resetBaud).goto (.reset .restoreFailed)) { s with savedBaud := some s.baud })
  | transmitReset (h : s.phase = .reset .transmit) :
      Stepped s (txWrite [s.params.resetPattern] (fun s => s.goto (.reset .receive))
        (fun s => s.goto (.reset .restoreFailed)) { s with txBuf := some [s.params.resetPattern] })
  | receiveEcho (h : s.phase = .reset .receive) :
      Stepped s (rxRead 1 (fun rx s => { s.goto (.reset .restore) with rxBuf := some rx })
        (fun s => s.goto (.reset .restoreFailed)) s)
  | restore {b : Nat} (h : s.phase = .reset .restore) (hb : s.savedBaud = some b) :
      Stepped s (setBaud b (fun s => s.goto (.reset .decide)) restoreFails s)
  | restoreFailed {b : Nat} (h : s.phase = .reset .restoreFailed) (hb : s.savedBaud = some b) :
      Stepped s (setBaud b deliverTransportFault restoreFails s)
  | presence {e : Byte} {rest : List Byte} (h : s.phase = .reset .decide) (hr : s.rxBuf = some (e :: rest))
      (he : e ≠ s.params.resetPattern) : Stepped s (deliver .ok s)
  | noPresence {tx rx : List Byte} (h : s.phase = .reset .decide) (ht : s.txBuf = some tx) (hr : s.rxBuf = some rx)
      (he : rx = [] ∨ rx.head? = some s.params.resetPattern) : Stepped s (deliver (.err .noPresence ⟨tx, rx⟩) s)
  | startFrame (h : s.phase = .write .start) :
      Stepped s { s.goto (.write .build) with txBuf := some [], byteIdx := some 0, bitIdx := some 0 }
  | callSerialize {d : List Byte} {k : Nat} {i : Fin 8} {b : Byte} (h : s.phase = .write .build)
      (hd : s.data = some d) (hk : s.byteIdx = some k) (hi : s.bitIdx = some i) (hb : d[k]? = some b)
      (hc : ∀ bs, s.callResult ≠ some (.patterns bs)) : Stepped s (s.returns (.patterns (serialize s.params b)))
  | pattern {d bs tx : List Byte} {k : Nat} {i : Fin 8} {b w : Byte} (h : s.phase = .write .build)
      (hd : s.data = some d) (hk : s.byteIdx = some k) (hi : s.bitIdx = some i) (hb : d[k]? = some b)
      (hc : s.callResult = some (.patterns bs)) (hw : bs[i.val]? = some w) (ht : s.txBuf = some tx)
      (hp : w = Config.onePattern ∨ w = s.params.zeroPattern) :
      Stepped s { s with
        txBuf := some (tx ++ [w]), bitIdx := some (i + 1), byteIdx := some (if i = 7 then k + 1 else k),
        callResult := if i = 7 then none else s.callResult }
  | endFrame {d tx : List Byte} {k : Nat} {i : Fin 8} (h : s.phase = .write .build) (hd : s.data = some d)
      (hk : s.byteIdx = some k) (hi : s.bitIdx = some i) (hb : d[k]? = none) (ht : s.txBuf = some tx) :
      Stepped s (if tx = [] then deliver .ok s else s.goto (.write .transmit))
  | sendFrame {tx : List Byte} (h : s.phase = .write .transmit) (ht : s.txBuf = some tx) :
      Stepped s (txWrite tx (fun s => s.goto (.write .receive)) deliverTransportFault s)
  | receiveFrame {tx : List Byte} (h : s.phase = .write .receive) (ht : s.txBuf = some tx) :
      Stepped s (rxRead tx.length (fun rx s => { s.goto (.write .compare) with rxBuf := some rx })
        deliverTransportFault s)
  | compareFrame {tx rx : List Byte} (h : s.phase = .write .compare) (ht : s.txBuf = some tx)
      (hr : s.rxBuf = some rx) :
      Stepped s (deliver (if rx = tx then .ok else .err .collision ⟨tx, rx⟩) s)
  | startRead (h : s.phase = .read .start) :
      Stepped s { s.goto (.read .byte) with out := some [], byteIdx := some 0 }
  | nextByte {n k : Nat} {o : List Byte} (h : s.phase = .read .byte) (hn : s.count = some n)
      (hk : s.byteIdx = some k) (ho : s.out = some o) :
      Stepped s (if k < n then { s.goto (.read .transmit) with acc := some 0, bitIdx := some 0 }
        else deliver (.okBytes o) s)
  | callEncode (h : s.phase = .read .transmit) (hc : ∀ b, s.callResult ≠ some (.pattern b)) :
      Stepped s (s.returns (.pattern Config.onePattern))
  | transmitSlot (h : s.phase = .read .transmit) (hc : s.callResult = some (.pattern Config.onePattern)) :
      Stepped s (txWrite [Config.onePattern] (fun s => s.goto (.read .receive)) deliverTransportFault
        { s with txBuf := some [Config.onePattern], callResult := none })
  | receiveSlot (h : s.phase = .read .receive) :
      Stepped s (rxRead 1 (fun rx s => { s.goto (.read .decode) with rxBuf := some rx }) deliverTransportFault s)
  | callDecode {e : Byte} {rest : List Byte} (h : s.phase = .read .decode) (hr : s.rxBuf = some (e :: rest))
      (hc : ∀ r, s.callResult ≠ some (.slot r)) : Stepped s (s.returns (.slot (decodeSlot e)))
  | symbolError {tx rx : List Byte} (h : s.phase = .read .decode) (ht : s.txBuf = some tx) (hr : s.rxBuf = some rx)
      (hm : rx = [] ∨ s.callResult = some (.slot .malformed)) :
      Stepped s (deliver (.err .symbolError ⟨tx, rx⟩) s)
  | bit {e a : Byte} {rest o : List Byte} {v : ProtocolBit} {i : Fin 8} {k : Nat} (h : s.phase = .read .decode)
      (hr : s.rxBuf = some (e :: rest)) (hc : s.callResult = some (.slot (.bit v))) (ha : s.acc = some a)
      (hi : s.bitIdx = some i) (hk : s.byteIdx = some k) (ho : s.out = some o) :
      Stepped s { s with
        phase := if i = 7 then .read .byte else .read .transmit
        acc := some (placeBit a v i)
        bitIdx := some (if i = 7 then 7 else i + 1)
        byteIdx := some (if i = 7 then k + 1 else k)
        out := some (if i = 7 then o ++ [placeBit a v i] else o)
        callResult := none }

/-- What accepting a bit answers. -/
theorem acceptBit_next {v : ProtocolBit} {s t : State} (h : acceptBit v s = .next t) :
    ∃ a i k o, s.acc = some a ∧ s.bitIdx = some i ∧ s.byteIdx = some k ∧ s.out = some o ∧
      t = { s with
        phase := if i = 7 then .read .byte else .read .transmit
        acc := some (placeBit a v i)
        bitIdx := some (if i = 7 then 7 else i + 1)
        byteIdx := some (if i = 7 then k + 1 else k)
        out := some (if i = 7 then o ++ [placeBit a v i] else o)
        callResult := none } := by
  have h₀ := h
  obtain ⟨a, ha, h⟩ := need_next h
  obtain ⟨i, hi, h⟩ := need_next h
  obtain ⟨k, hk, h⟩ := need_next h
  obtain ⟨o, ho, h⟩ := need_next h
  refine ⟨a, i, k, o, ha, hi, hk, ho, ?_⟩
  rw [acceptBit_eq v ha hi hk ho] at h₀
  simpa using h₀.symm

/-- A bit row that answers accepts its bit. -/
theorem slotBit_next {e : Byte} {v : ProtocolBit} {s t : State} (h : slotBit e v s = .next t) :
    (s.phase = .read .decode ∧ (∃ rest, s.rxBuf = some (e :: rest)) ∧ s.callResult = some (.slot (.bit v))) ∧
    acceptBit v s = .next t := by
  unfold slotBit at h
  split at h
  · exact ⟨slotReady_iff.mp ‹_›, h⟩
  · simp at h

/-- A malformed row that answers raises SymbolError. -/
theorem slotBad_next {e : Byte} {s t : State} (h : slotBad e s = .next t) :
    (s.phase = .read .decode ∧ (∃ rest, s.rxBuf = some (e :: rest)) ∧ s.callResult = some (.slot .malformed)) ∧
    raise .symbolError s = .next t := by
  unfold slotBad at h
  split at h
  · exact ⟨slotReady_iff.mp ‹_›, h⟩
  · simp at h

/-- What a slot row can answer, whatever the verdict `r` it was chosen by. -/
theorem exec_slotRow_next {r : SlotResult} {e : Byte} {s t : State} (h : exec (slotRow r e) s = .next t) :
    (∃ v, s.callResult = some (.slot (.bit v)) ∧ acceptBit v s = .next t) ∨
    (s.callResult = some (.slot .malformed) ∧ raise .symbolError s = .next t) := by
  rcases r with (_ | _) | _
  · exact .inl ⟨_, (slotBit_next h).1.2.2, (slotBit_next h).2⟩
  · exact .inl ⟨_, (slotBit_next h).1.2.2, (slotBit_next h).2⟩
  · simp only [slotRow] at h
    split at h
    · exact .inr ⟨(slotBad_next h).1.2.2, (slotBad_next h).2⟩
    split at h
    · exact .inr ⟨(slotBad_next h).1.2.2, (slotBad_next h).2⟩
    split at h
    · exact .inr ⟨(slotBad_next h).1.2.2, (slotBad_next h).2⟩
    · exact .inr ⟨(slotBad_next h).1.2.2, (slotBad_next h).2⟩

/-- A pattern that joins the frame is the one SERIALIZE gave for the bit position. -/
theorem appendPattern_next {b : Byte} {s t : State} (h : appendPattern b s = .next t) :
    ∃ tx, s.txBuf = some tx ∧ ∃ k i, s.byteIdx = some k ∧ s.bitIdx = some i ∧
      (∃ bs, s.callResult = some (.patterns bs) ∧ bs[i.val]? = some b) ∧
      t = { s with
        txBuf := some (tx ++ [b]), bitIdx := some (i + 1), byteIdx := some (if i = 7 then k + 1 else k),
        callResult := if i = 7 then none else s.callResult } := by
  obtain ⟨tx, ht, h⟩ := need_next h
  obtain ⟨k, hk, h⟩ := need_next h
  obtain ⟨i, hi, h⟩ := need_next h
  refine ⟨tx, ht, k, i, hk, hi, ?_⟩
  split at h
  · rename_i bs hc
    split at h
    · refine ⟨⟨bs, hc, ‹_›⟩, ?_⟩
      simp only [Host.Outcome.next.injEq] at h
      rw [← h, nextFrameBit_eq hk]
    · simp at h
  · simp at h

/-- What step 5 of RESET can answer for the echo `e`. -/
theorem resetVerdict_next {e : Byte} {s t : State} (h : resetVerdict e s = .next t) :
    s.phase = .reset .decide ∧ (∃ rest, s.rxBuf = some (e :: rest)) ∧
    ((e = s.params.resetPattern ∧ raise .noPresence s = .next t) ∨
     (e ≠ s.params.resetPattern ∧ t = deliver .ok s)) := by
  unfold resetVerdict at h
  split at h
  · rename_i hc
    simp only [Bool.and_eq_true, beq_iff_eq] at hc
    obtain ⟨hp, hr⟩ := hc
    refine ⟨hp, ?_, ?_⟩
    · rcases hx : s.rxBuf with _ | _ | ⟨b, rest⟩ <;> simp_all
    · by_cases he : e = s.params.resetPattern
      · exact .inl ⟨he, by simpa [Machine.noPresence, he] using h⟩
      · have hn : Machine.noPresence s.params [e] = false := by simp [Machine.noPresence, he]
        refine .inr ⟨he, ?_⟩
        simpa [hn, eq_comm (a := deliver .ok s)] using h
  · simp at h

/-- The inversion of `step`. -/
theorem stepped_of_step {s t : State} (h : step s = .next t) : Stepped s t := by
  rcases hp : s.phase with _ | n | n | n
  · -- IDLE
    rcases hq : s.pending with _ | ⟨w, ws⟩
    · rw [step_idle_wait hp hq] at h
      obtain rfl : s = t := by simpa using h
      exact .wait hp hq
    · rw [step_idle_command hp hq] at h
      unfold decodeCmd at h
      split at h
      · simp only [exec, execReset] at h
        obtain ⟨-, rfl⟩ := accept_next h
        exact .acceptReset hp hq
      split at h
      · simp only [exec, execWrite] at h
        obtain ⟨-, rfl⟩ := accept_next h
        exact .acceptWrite hp hq
      split at h
      · simp only [exec, execRead] at h
        obtain ⟨-, rfl⟩ := accept_next h
        exact .acceptRead hp hq
      · simp [exec, execCmdReserved] at h
  · -- RESET
    rcases n with _ | _ | _ | _ | _ | _
    · rw [step_reset_save hp] at h
      obtain rfl := by simpa using h
      exact .saveBaud hp
    · rw [step_reset_transmit hp] at h
      obtain rfl := by simpa using h
      exact .transmitReset hp
    · rw [step_reset_receive hp] at h
      obtain rfl := by simpa using h
      exact .receiveEcho hp
    · simp only [step, fetch, hp, runMicro, restoreBaud] at h
      obtain ⟨b, hb, h⟩ := need_next h
      obtain rfl := by simpa using h
      exact .restore hp hb
    · simp only [step, fetch, hp, runMicro, restoreAfterFailure] at h
      obtain ⟨b, hb, h⟩ := need_next h
      obtain rfl := by simpa using h
      exact .restoreFailed hp hb
    · rcases hr : s.rxBuf with _ | _ | ⟨e, rest⟩
      · simp [step, fetch, hp, fetchEcho, hr] at h
      · simp only [step, fetch, hp, fetchEcho, hr, runMicro] at h
        obtain ⟨tx, rx, ht, hr', rfl⟩ := raise_next h
        obtain rfl : rx = [] := by simpa [hr] using hr'.symm
        exact .noPresence hp ht hr (.inl rfl)
      · have h' : resetVerdict e s = .next t := by
          by_cases he : e = s.params.resetPattern
          · subst he
            simpa [step, fetch, hp, fetchEcho, hr, decodeRxrst, State.afterFetch_inFlight, exec,
              execRxrstNoPresence] using h
          · simpa [step, fetch, hp, fetchEcho, hr, decodeRxrst, State.afterFetch_inFlight, exec,
              execRxrstPresence, he] using h
        obtain ⟨-, -, ⟨he, h⟩ | ⟨he, rfl⟩⟩ := resetVerdict_next h'
        · obtain ⟨tx, rx, ht, hr', rfl⟩ := raise_next h
          exact .noPresence hp ht hr' (.inr (by rw [hr] at hr'; simp at hr'; subst hr'; simpa using he))
        · exact .presence hp hr he
  · -- WRITE
    rcases n with _ | _ | _ | _ | _
    · rw [step_write_start hp] at h
      obtain rfl := by simpa using h
      exact .startFrame hp
    · rcases hd : s.data with _ | d
      · simp [step, fetch, hp, fetchBuild, hd] at h
      rcases hk : s.byteIdx with _ | k
      · simp [step, fetch, hp, fetchBuild, hd, hk] at h
      rcases hi : s.bitIdx with _ | i
      · simp [step, fetch, hp, fetchBuild, hd, hk, hi] at h
      rcases hb : d[k]? with _ | b
      · simp only [step, fetch, hp, fetchBuild, hd, hk, hi, hb, runMicro, endFrame] at h
        obtain ⟨tx, ht, h⟩ := need_next h
        simp only [List.isEmpty_iff, Host.Outcome.next.injEq] at h
        obtain rfl := h
        exact .endFrame hp hd hk hi hb ht
      · by_cases hc : ∃ bs, s.callResult = some (.patterns bs)
        · obtain ⟨bs, hc⟩ := hc
          rcases hw : bs[i.val]? with _ | w
          · simp [step, fetch, hp, fetchBuild, hd, hk, hi, hb, hc, hw] at h
          · have key : ∀ w, bs[i.val]? = some w → appendPattern w s = .next t →
                (w = Config.onePattern ∨ w = s.params.zeroPattern) → Stepped s t := by
              intro w hw h hpat
              obtain ⟨tx, ht, k', i', hk', hi', -, rfl⟩ := appendPattern_next h
              obtain rfl : k = k' := by simpa [hk] using hk'
              obtain rfl : i = i' := by simpa [hi] using hi'
              exact .pattern hp hd hk hi hb hc hw ht hpat
            by_cases h1 : w = Config.onePattern
            · refine key w hw ?_ (.inl h1)
              simpa [step, fetch, hp, fetchBuild, hd, hk, hi, hb, hc, hw, fetchPattern, decodeTxpat, h1, exec,
                execTxpOne, State.afterFetch_inFlight] using h
            by_cases h0 : w = s.params.zeroPattern
            · refine key w hw ?_ (.inr h0)
              simpa [step, fetch, hp, fetchBuild, hd, hk, hi, hb, hc, hw, fetchPattern, decodeTxpat, h1, ← h0, exec,
                execTxpZero, State.afterFetch_inFlight] using h
            · simp [step, fetch, hp, fetchBuild, hd, hk, hi, hb, hc, hw, fetchPattern, decodeTxpat, h1, h0] at h
        · have hc' : ∀ bs, s.callResult ≠ some (.patterns bs) := fun bs e => hc ⟨bs, e⟩
          have hs : step s = .next (s.returns (.patterns (serialize s.params b))) := by
            rcases hx : s.callResult with _ | _ | bs | _
            · simp [step, fetch, hp, fetchBuild, hd, hk, hi, hb, hx, exec, execSerialize, State.afterFetch_inFlight]
            · simp [step, fetch, hp, fetchBuild, hd, hk, hi, hb, hx, exec, execSerialize, State.afterFetch_inFlight]
            · exact absurd hx (hc' bs)
            · simp [step, fetch, hp, fetchBuild, hd, hk, hi, hb, hx, exec, execSerialize, State.afterFetch_inFlight]
          obtain rfl := by simpa [hs] using h
          exact .callSerialize hp hd hk hi hb hc'
    · simp only [step, fetch, hp, runMicro, sendFrame] at h
      obtain ⟨tx, ht, h⟩ := need_next h
      obtain rfl := by simpa using h
      exact .sendFrame hp ht
    · simp only [step, fetch, hp, runMicro, receiveFrame] at h
      obtain ⟨tx, ht, h⟩ := need_next h
      obtain rfl := by simpa using h
      exact .receiveFrame hp ht
    · simp only [step, fetch, hp, runMicro, compareFrame] at h
      obtain ⟨tx, ht, h'⟩ := need_next h
      obtain ⟨rx, hr, -⟩ := need_next h'
      have hs := step_write_compare hp ht hr
      simp only [step, fetch, hp, runMicro, compareFrame] at hs
      obtain rfl := by simpa [hs] using h
      exact .compareFrame hp ht hr
  · -- READ
    rcases n with _ | _ | _ | _ | _
    · rw [step_read_start hp] at h
      obtain rfl := by simpa using h
      exact .startRead hp
    · simp only [step, fetch, hp, runMicro, nextByte] at h
      obtain ⟨n, hn, h⟩ := need_next h
      obtain ⟨k, hk, h⟩ := need_next h
      obtain ⟨o, ho, h⟩ := need_next h
      obtain rfl := by simpa using h
      exact .nextByte hp hn hk ho
    · by_cases hc : ∃ b, s.callResult = some (.pattern b)
      · obtain ⟨b, hc⟩ := hc
        by_cases h1 : b = Config.onePattern
        · subst h1
          rw [step_read_transmit hp hc] at h
          obtain rfl := by simpa using h
          exact .transmitSlot hp hc
        · simp [step, fetch, hp, hc, fetchPattern, decodeTxpat, h1] at h
      · have hc' : ∀ b, s.callResult ≠ some (.pattern b) := fun b e => hc ⟨b, e⟩
        have hs : step s = .next (s.returns (.pattern Config.onePattern)) := by
          rcases hx : s.callResult with _ | b | _ | _
          · simp [step, fetch, hp, hx, exec, execEncodeBit, encodeBit, State.afterFetch_inFlight]
          · exact absurd hx (hc' b)
          · simp [step, fetch, hp, hx, exec, execEncodeBit, encodeBit, State.afterFetch_inFlight]
          · simp [step, fetch, hp, hx, exec, execEncodeBit, encodeBit, State.afterFetch_inFlight]
        obtain rfl := by simpa [hs] using h
        exact .callEncode hp hc'
    · rw [step_read_receive hp] at h
      obtain rfl := by simpa using h
      exact .receiveSlot hp
    · rcases hr : s.rxBuf with _ | _ | ⟨e, rest⟩
      · simp [step, fetch, hp, fetchSlot, hr] at h
      · simp only [step, fetch, hp, fetchSlot, hr, runMicro] at h
        obtain ⟨tx, rx, ht, hr', rfl⟩ := raise_next h
        obtain rfl : rx = [] := by simpa [hr] using hr'.symm
        exact .symbolError hp ht hr (.inl rfl)
      · by_cases hc : ∃ r, s.callResult = some (.slot r)
        · obtain ⟨r, hc⟩ := hc
          have h' : exec (slotRow r e) s = .next t := by
            simpa [step, fetch, hp, fetchSlot, hr, hc, State.afterFetch_inFlight] using h
          rcases exec_slotRow_next h' with ⟨v, hv, ha⟩ | ⟨hm, ha⟩
          · obtain ⟨a, i, k, o, hacc, hi, hk, ho, rfl⟩ := acceptBit_next ha
            exact .bit hp hr hv hacc hi hk ho
          · obtain ⟨tx, rx, ht, hr', rfl⟩ := raise_next ha
            exact .symbolError hp ht hr' (.inr hm)
        · have hc' : ∀ r, s.callResult ≠ some (.slot r) := fun r e => hc ⟨r, e⟩
          have hs : step s = .next (s.returns (.slot (decodeSlot e))) := by
            rcases hx : s.callResult with _ | _ | _ | r
            · simp [step, fetch, hp, fetchSlot, hr, hx, exec, execDecodeSlot, State.afterFetch_inFlight]
            · simp [step, fetch, hp, fetchSlot, hr, hx, exec, execDecodeSlot, State.afterFetch_inFlight]
            · simp [step, fetch, hp, fetchSlot, hr, hx, exec, execDecodeSlot, State.afterFetch_inFlight]
            · exact absurd hx (hc' r)
          obtain rfl := by simpa [hs] using h
          exact .callDecode hp hr hc'

end Sys2Proof.Machine
end

