-- ==== Sys2Proof/Tests/Slice0.lean ====
section
/-! SUPPORT. Tests/Slice0.lean: the WellFormed smoke test; words written out from the spec's encodings; small tests of one
step each, expected results from spec/95_test_vectors.md (V1 to V67) and hand calculation; and for every statement with
hypotheses a witness that meets them. -/

open Sys2Proof Sys2Proof.Machine

/-! ## WellFormed -/

/-- The one ill-formed term: RXRST_PRESENCE with the byte that RXRST_NOPRESENCE matches (30 R74). -/
theorem test_wellformed_refuses_echo_of_the_reset_pattern :
    wellFormed Config.Params.default (.rxrstPresence 0xF0) = false := by decide

theorem test_wellformed_accepts_neighbours :
    wellFormed Config.Params.default (.rxrstPresence 0xF1) = true ∧
    wellFormed Config.Params.default (.rxrstPresence 0xEF) = true ∧
    wellFormed { Config.Params.default with resetPattern := 0x0F } (.rxrstPresence 0xF0) = true := by decide

/-! ## Decoding, from words written out bit by bit -/

/-- 30 R77. -/
theorem test_decode_cmd :
    decodeCmd ⟨0b00, [0x33], 5⟩ = .reset ∧ decodeCmd ⟨0b01, [0x33], 5⟩ = .write [0x33] ∧
    decodeCmd ⟨0b10, [0x33], 5⟩ = .read 5 ∧ decodeCmd ⟨0b11, [0x33], 5⟩ = .cmdReserved := by decide

/-- 30 R72, with the default patterns and with others. -/
theorem test_decode_txpat :
    decodeTxpat Config.Params.default .write 0b11111111 = .ok .txpOne ∧
    decodeTxpat Config.Params.default .write 0b10000000 = .ok .txpZero ∧
    decodeTxpat Config.Params.default .read 0b11111111 = .ok .txpOne ∧
    decodeTxpat Config.Params.default .reset 0b11110000 = .ok .txpReset ∧
    decodeTxpat { Config.Params.default with zeroPattern := 0x00 } .write 0b00000000 = .ok .txpZero := by decide

/-- 30 R82: another byte, or a pattern of another operation, is never transmitted. -/
theorem test_decode_txpat_rejects :
    decodeTxpat Config.Params.default .write 0x81 = .error (.notTransmitted .write 0x81) ∧
    decodeTxpat Config.Params.default .read 0x80 = .error (.notTransmitted .read 0x80) ∧
    decodeTxpat Config.Params.default .reset 0xFF = .error (.notTransmitted .reset 0xFF) := by decide

/-- 30 R73, opcode_table.json: `1111iiis`, `0rrriiis`, `10rriiis`, `110riiis`, `1110iiis`. -/
theorem test_decode_rxslot :
    decodeRxslot 0b11110101 = .rxslotBit1 0b010 ∧ decodeRxslot 0b11111110 = .rxslotBit0 0b111 ∧
    decodeRxslot 0b01111111 = .rxslotBad7 0b1111111 ∧ decodeRxslot 0b10110001 = .rxslotBad6 0b110001 ∧
    decodeRxslot 0b11011110 = .rxslotBad5 0b11110 ∧ decodeRxslot 0b11101111 = .rxslotBad4 0b1111 := by decide

/-- 30 R74. -/
theorem test_decode_rxrst :
    decodeRxrst Config.Params.default 0b11110000 = .rxrstNoPresence ∧
    decodeRxrst Config.Params.default 0b11100000 = .rxrstPresence 0xE0 := by decide

/-- V14, for every byte. -/
theorem test_rxslot_exhaustive :
    ∀ e : Byte, decodeSlot e = if 0xF0 ≤ e.toNat then .bit (e.getLsbD 0) else .malformed := by decide

theorem test_encode :
    encode Config.Params.default (.rxslotBad6 0b110001) = some (.rxslot 0b10110001) ∧
    encode Config.Params.default (.rxslotBit0 0b011) = some (.rxslot 0b11110110) ∧
    encode Config.Params.default .txpReset = some (.txpat .reset 0xF0) ∧
    encode Config.Params.default (.serialize 0x33) = none := by decide

/-! ## The pure functions -/

/-- V1, V2. -/
theorem test_encode_bit :
    encodeBit Config.Params.default true = 0xFF ∧ encodeBit Config.Params.default false = 0x80 := by decide

/-- V5, V6, V9, V10, V13. -/
theorem test_decode_slot :
    decodeSlot 0xF0 = .bit false ∧ decodeSlot 0xF1 = .bit true ∧ decodeSlot 0xEF = .malformed ∧
    decodeSlot 0x7F = .malformed ∧ decodeSlot 0xE1 = .malformed := by decide

/-- V19, V17. -/
theorem test_serialize :
    serialize Config.Params.default 0xA5 = [0xFF, 0x80, 0xFF, 0x80, 0x80, 0xFF, 0x80, 0xFF] ∧
    serialize Config.Params.default 0x01 = [0xFF, 0x80, 0x80, 0x80, 0x80, 0x80, 0x80, 0x80] := by decide

/-- V22, V23. -/
theorem test_frame :
    frame Config.Params.default [0xCC, 0x44] =
      [0x80, 0x80, 0xFF, 0xFF, 0x80, 0x80, 0xFF, 0xFF, 0x80, 0x80, 0xFF, 0x80, 0x80, 0x80, 0xFF, 0x80] ∧
    frame Config.Params.default [] = [] := by decide

/-- V43, V52. -/
theorem test_byte_of_bits : byteOf [true, false, true, false, false, true, false, true] = 0xA5 := by decide

/-- V64. -/
theorem test_result_codes (bs : List Byte) (pl : Payload) :
    resultCode .ok = some 0 ∧ resultCode (.okBytes bs) = some 0 ∧ resultCode (.err .noPresence pl) = some 1 ∧
    resultCode (.err .symbolError pl) = some 2 ∧ resultCode (.err .collision pl) = some 3 ∧
    resultCode .transportFault = none := ⟨rfl, rfl, rfl, rfl, rfl, rfl⟩

/-! ## States for one step -/

/-- The machine after reset, with the commands `q` to come and the answers `a` of the environment. -/
def Bench.idle (q : List CmdWord) (a : List Answer) : State := { State.reset with pending := q, env := a }

/-- A RESET at step 3, its rate saved. -/
def Bench.resetReceive (a : List Answer) : State :=
  { (Bench.idle [] a).placeResetTransmit with phase := .reset .receive, txBuf := some [0xF0] }

/-- A RESET at step 4. -/
def Bench.resetRestore (a : List Answer) : State :=
  { (Bench.idle [] a).placeResetTransmit with phase := .reset .restore, txBuf := some [0xF0], rxBuf := some [0x70] }

/-- A WRITE of `[0x33]` whose frame is built. -/
def Bench.writeBuilt (n : WriteStep) (rx : Option (List Byte)) (a : List Answer) : State :=
  { Bench.idle [] a with
    phase := .write n, data := some [0x33], byteIdx := some 1, bitIdx := some 0, rxBuf := rx,
    txBuf := some [0xFF, 0xFF, 0x80, 0x80, 0xFF, 0xFF, 0x80, 0x80] }

/-- A READ of one byte that waits for the answer of its first slot. -/
def Bench.readReceive (a : List Answer) : State :=
  { (Bench.idle [] a).placeSlotTransmit with
    phase := .read .receive, txBuf := some [0xFF], callResult := none }

/-- A READ of one byte in its last slot, with seven bits one and the byte `e` received and classified. -/
def Bench.lastSlot (e : Byte) : State := { (Bench.idle [] []).placeSlot e with bitIdx := some 7, acc := some 0x7F }

/-- Both fields of the payload and the kind of the last result of a step, if it answers. -/
def Bench.results (o : StepOutcome) : Option (List Result) :=
  match o with
  | .next t => some t.results
  | _ => none

/-- Whether a step answers a state with a property. -/
def Bench.next (o : StepOutcome) (f : State → Bool) : Bool :=
  match o with
  | .next t => f t
  | _ => false

/-! ## The façade -/

/-- 43 R141: the operand is captured, no primitive is issued. -/
theorem test_step_accepts_write :
    Bench.next (step (Bench.idle [⟨0b01, [0x33], 0⟩] [])) (fun t =>
      t.phase == .write .start && t.data == some [0x33] && t.pending == [] && t.trace == []) = true := by decide

theorem test_step_accepts_read :
    Bench.next (step (Bench.idle [⟨0b10, [], 2⟩] [])) (fun t => t.phase == .read .start && t.count == some 2) =
      true := by decide

theorem test_step_accepts_reset :
    Bench.next (step (Bench.idle [⟨0b00, [], 0⟩] [])) (fun t => t.phase == .reset .save && t.baud == 115200) =
      true := by decide

/-- 30 R82. -/
theorem test_step_refuses_reserved : step (Bench.idle [⟨0b11, [], 0⟩] []) = .refused .reservedSelector := rfl

/-- V63. -/
theorem test_command_in_flight : exec (.write [0x33]) (Bench.readReceive []) = .refused .commandInFlight := rfl

/-! ## RESET -/

/-- Step 1: the rate is saved and RESET_BAUD set. -/
theorem test_reset_saves :
    Bench.next (step { Bench.idle [] [.ret []] with phase := .reset .save }) (fun t =>
      t.savedBaud == some 115200 && t.baud == 9600 && t.trace == [.setBaud 0 9600]) = true := by decide

/-- 10 R22, 60 R157: the first SetBaud fails; BAUD is RESET_BAUD until the restoring one. -/
theorem test_reset_save_fails :
    Bench.next (step { Bench.idle [] [.fail] with phase := .reset .save }) (fun t =>
      t.savedBaud == some 115200 && t.baud == 9600 && t.phase == .reset .restoreFailed &&
      t.trace == [.failed 0 (.setBaud 9600)]) = true := by decide

/-- V27, step 2. -/
theorem test_txpReset :
    Bench.next (exec .txpReset (Bench.idle [] [.ret []]).placeResetTransmit) (fun t =>
      t.phase == .reset .receive && t.trace == [.txWrite 0 [0xF0]]) = true := by decide

/-- V67: TxWrite fails; the rate is still to be restored. -/
theorem test_txpReset_fails :
    Bench.next (exec .txpReset (Bench.idle [] [.fail]).placeResetTransmit) (fun t =>
      t.phase == .reset .restoreFailed && t.results == [] && t.savedBaud == some 115200) = true := by decide

/-- Step 4: the saved rate is restored before the decision. -/
theorem test_reset_restores :
    Bench.next (step (Bench.resetRestore [.ret []])) (fun t =>
      t.baud == 115200 && t.phase == .reset .decide && t.results == []) = true := by decide

/-- V24. -/
theorem test_rxrstNoPresence :
    Bench.results (exec .rxrstNoPresence ((Bench.idle [] []).placeEcho 0xF0)) =
      some [.err .noPresence ⟨[0xF0], [0xF0]⟩] := by decide

/-- V25: no byte. -/
theorem test_reset_no_echo :
    Bench.results (step { (Bench.idle [] []).placeEcho 0xF0 with rxBuf := some [] }) =
      some [.err .noPresence ⟨[0xF0], []⟩] := by decide

/-- V29. -/
theorem test_rxrstPresence :
    Bench.results (exec (.rxrstPresence 0xF1) ((Bench.idle [] []).placeEcho 0xF1)) = some [.ok] := by decide

/-- V32: the comparison is with whatever was sent. -/
theorem test_rxrstPresence_other_pattern :
    Bench.results (step (({ Bench.idle [] [] with
      params := { Config.Params.default with resetPattern := 0x0F } } : State).placeEcho 0xF0)) = some [.ok] := by decide

/-! ## WRITE -/

/-- V18: the pattern of bit 7 of 0x80 ends the byte. -/
theorem test_txpOne_in_a_frame :
    Bench.next (exec .txpOne { (Bench.idle [] []).placeFrameBit 0x80 with bitIdx := some 7 }) (fun t =>
      t.txBuf == some [0xFF] && t.byteIdx == some 1 && t.bitIdx == some 0 && t.callResult == none) = true := by decide

/-- V18: the pattern of bit 0 of 0x80. -/
theorem test_txpZero :
    Bench.next (exec .txpZero ((Bench.idle [] []).placeFrameBit 0x80)) (fun t =>
      t.txBuf == some [0x80] && t.byteIdx == some 0 && t.bitIdx == some 1) = true := by decide

/-- V33: the frame goes out whole. -/
theorem test_write_sends :
    Bench.next (step (Bench.writeBuilt .transmit none [.ret []])) (fun t =>
      t.trace == [.txWrite 0 [0xFF, 0xFF, 0x80, 0x80, 0xFF, 0xFF, 0x80, 0x80]] && t.phase == .write .receive) =
      true := by decide

/-- V36: a short answer is a collision. -/
theorem test_write_short_echo :
    Bench.results (step (Bench.writeBuilt .compare (some [0xFF, 0xFF, 0x80, 0x80]) [])) =
      some [.err .collision ⟨[0xFF, 0xFF, 0x80, 0x80, 0xFF, 0xFF, 0x80, 0x80], [0xFF, 0xFF, 0x80, 0x80]⟩] := by decide

/-! ## READ -/

/-- V50, one slot. -/
theorem test_txpOne_in_a_slot :
    Bench.next (exec .txpOne (Bench.idle [] [.ret []]).placeSlotTransmit) (fun t =>
      t.txBuf == some [0xFF] && t.phase == .read .receive && t.trace == [.txWrite 0 [0xFF]]) = true := by decide

/-- V53: bits 3:1 are ignored; after bit 7 the byte is complete. -/
theorem test_rxslotBit1 :
    Bench.next (exec (.rxslotBit1 0b000) (Bench.lastSlot 0xF1)) (fun t =>
      t.out == some [0xFF] && t.byteIdx == some 1 && t.phase == .read .byte) = true := by decide

theorem test_rxslotBit0 :
    Bench.next (exec (.rxslotBit0 0b111) (Bench.lastSlot 0xFE)) (fun t => t.out == some [0x7F]) = true := by decide

/-- V10 in a READ. -/
theorem test_rxslotBad7 :
    Bench.results (exec (.rxslotBad7 0b1111111) (Bench.lastSlot 0x7F)) =
      some [.err .symbolError ⟨[0xFF], [0x7F]⟩] := by decide

theorem test_rxslotBad6 :
    Bench.results (exec (.rxslotBad6 0b111111) (Bench.lastSlot 0xBF)) =
      some [.err .symbolError ⟨[0xFF], [0xBF]⟩] := by decide

theorem test_rxslotBad5 :
    Bench.results (exec (.rxslotBad5 0b11111) (Bench.lastSlot 0xDF)) =
      some [.err .symbolError ⟨[0xFF], [0xDF]⟩] := by decide

/-- V56: seven good bits are discarded. -/
theorem test_rxslotBad4 :
    Bench.results (exec (.rxslotBad4 0b1111) (Bench.lastSlot 0xEF)) =
      some [.err .symbolError ⟨[0xFF], [0xEF]⟩] := by decide

/-- V58: no byte in a slot. -/
theorem test_read_empty_slot :
    Bench.results (step { (Bench.idle [] []).placeSlot 0xFF with rxBuf := some [], callResult := none }) =
      some [.err .symbolError ⟨[0xFF], []⟩] := by decide

/-- 20 R43: of an answer that is too long, what was asked for is returned (log entry 6). -/
theorem test_read_takes_one_byte :
    Bench.next (step (Bench.readReceive [.ret [0xFF, 0x00]])) (fun t =>
      t.rxBuf == some [0xFF] && t.trace == [.rxRead 0 1 [0xFF]]) = true := by decide

/-! ## A word of the table is fetched by the very next step -/

theorem test_fetch_word_read :
    step (State.reset.withFetchWord 8 0x02) = exec (.read 0) { State.reset with pending := [] } := rfl

theorem test_fetch_word_slot :
    step (State.reset.withFetchWord 8 0xEF) =
      exec (.rxslotBad4 0b1111) (State.reset.withFetchWord 8 0xEF) := rfl

/-! ## Witnesses: the hypotheses of each statement can be met -/

theorem witness_DecodeUndoesEncode :
    Config.Params.default.zeroPattern ≠ Config.onePattern ∧
    wellFormed Config.Params.default (.write [0x33]) = true ∧
    wellFormed Config.Params.default (.rxslotBad7 0b1111111) = true ∧
    wellFormed Config.Params.default (.rxrstPresence 0xF1) = true ∧
    encode Config.Params.default (.rxrstPresence 0xF1) = some (.rxrst 0xF1) := by decide

theorem witness_OnlyThePatternsAreSent :
    decode Config.Params.default (.txpat .write 0xFF) = .ok .txpOne ∧
    decode Config.Params.default (.txpat .read 0xFF) = .ok .txpOne ∧
    decode Config.Params.default (.txpat .write 0x80) = .ok .txpZero ∧
    decode Config.Params.default (.txpat .reset 0xF0) = .ok .txpReset := by decide

theorem witness_EncodeBitIsOneOfTwoPatterns : Config.Params.default.zeroPattern ≠ Config.onePattern := by decide

theorem witness_DecodeSlotChecksTheUpperHalf :
    (0xF0#8 &&& 0xF0 = 0xF0) ∧ (0xFF#8 &&& 0xF0 = 0xF0) ∧ (0xEF#8 &&& 0xF0 ≠ 0xF0) ∧
    (0x00#8 &&& 0xF0 ≠ 0xF0) := by decide

theorem witness_FrameHoldsEveryBitInOrder :
    ([0xCC, 0x44] : List Byte)[0]? = some 0xCC ∧ ([0xCC, 0x44] : List Byte)[1]? = some 0x44 := by decide

theorem witness_FrameOfAByteMapsBack : Config.Params.default.zeroPattern ≠ Config.onePattern := by decide

theorem witness_InitialisationLeavesAQuietBlock : State.reset.phase = .idle ∧ State.reset.pending = [] := by decide

theorem witness_StepRunsTheCommand :
    (Bench.idle [⟨0b01, [0x33], 0⟩] []).phase = .idle ∧
    (Bench.idle [⟨0b01, [0x33], 0⟩] []).pending = [⟨0b01, [0x33], 0⟩] := by decide

theorem witness_StepRunsTheRowInFlight_reset :
    (Bench.idle [] []).placeResetTransmit.phase = .reset .transmit ∧
    ((Bench.idle [] []).placeEcho 0x70).phase = .reset .decide ∧
    ((Bench.idle [] []).placeEcho 0x70).rxBuf = some [0x70] ∧
    decode ((Bench.idle [] []).placeEcho 0x70).params (.rxrst 0x70) = .ok (.rxrstPresence 0x70) := by decide

theorem witness_StepRunsTheRowInFlight_write :
    let s := (Bench.idle [] []).placeFrameBit 0x80
    s.phase = .write .build ∧ s.data = some [0x80] ∧ s.byteIdx = some 0 ∧ s.bitIdx = some 0 ∧
    ([0x80] : List Byte)[0]? = some 0x80 ∧ s.callResult = some (.patterns (serialize s.params 0x80)) ∧
    (serialize s.params 0x80)[0]? = some 0x80 ∧ decode s.params (.txpat .write 0x80) = .ok .txpZero := by decide

theorem witness_StepRunsTheRowInFlight_read :
    let s := (Bench.idle [] []).placeSlotTransmit
    let u := (Bench.idle [] []).placeSlot 0xEF
    s.phase = .read .transmit ∧ s.callResult = some (.pattern 0xFF) ∧
    decode s.params (.txpat .read 0xFF) = .ok .txpOne ∧
    u.phase = .read .decode ∧ u.rxBuf = some [0xEF] ∧ u.callResult = some (.slot (decodeSlot 0xEF)) ∧
    decode u.params (.rxslot 0xEF) = .ok (.rxslotBad4 0b1111) := by decide

theorem witness_StepCallsTheFunctions :
    let w := { (Bench.idle [] []).placeFrameBit 0x80 with callResult := none }
    let s := { (Bench.idle [] []).placeSlotTransmit with callResult := none }
    let u := { (Bench.idle [] []).placeSlot 0xEF with callResult := none }
    w.callResult = none ∧ w.phase = .write .build ∧ w.data = some [0x80] ∧ w.byteIdx = some 0 ∧ w.bitIdx = some 0 ∧
    s.callResult = none ∧ s.phase = .read .transmit ∧
    u.callResult = none ∧ u.phase = .read .decode ∧ u.rxBuf = some [0xEF] := by decide

theorem witness_IdleBlockAcceptsEveryCommand : State.reset.phase = .idle := rfl

theorem witness_CommandInFlightIsRefused : (Bench.readReceive []).phase ≠ .idle := by decide

theorem witness_ForeignBytesAreRefused :
    State.reset.phase ≠ .write .build ∧ State.reset.phase ≠ .read .transmit ∧ State.reset.phase ≠ .reset .transmit ∧
    State.reset.phase ≠ .read .decode ∧ State.reset.phase ≠ .reset .decide := by decide

theorem witness_HostCannotTouchAnOperation :
    (Bench.readReceive [.ret [0xFF]]).phase ≠ .idle ∧ ∃ t, step (Bench.readReceive [.ret [0xFF]]) = .next t :=
  ⟨by decide, _, rfl⟩

theorem witness_NothingIsRemembered : ∃ t, step (Bench.writeBuilt .transmit none [.ret []]) = .next t := ⟨_, rfl⟩

/-- A step that ends an operation, and one that does not. -/
theorem witness_OneResultEndsAnOperation :
    (∃ t, step (Bench.writeBuilt .compare (some []) []) = .next t ∧ t.phase = .idle) ∧
    ∃ t, step (Bench.writeBuilt .transmit none [.ret []]) = .next t ∧ t.phase ≠ .idle :=
  ⟨⟨_, rfl, rfl⟩, _, rfl, by decide⟩

/-- A step with a primitive, and the idle block. -/
theorem witness_OnePrimitiveAtATime :
    (∃ t, step (Bench.readReceive [.ret [0xFF]]) = .next t ∧ t.trace ≠ (Bench.readReceive [.ret [0xFF]]).trace) ∧
    ∃ t, step State.reset = .next t ∧ State.reset.phase = .idle :=
  ⟨⟨_, rfl, by decide⟩, _, rfl, rfl⟩

/-- A read by RESET, by READ and by WRITE. -/
theorem witness_RxReadReturnsAtMostWhatIsAsked :
    (∃ t, step (Bench.resetReceive [.ret [0x70]]) = .next t ∧ t.trace = [] ++ [.rxRead 0 1 [0x70]]) ∧
    (∃ t, step (Bench.readReceive [.ret []]) = .next t ∧ t.trace = [] ++ [.rxRead 0 1 []]) ∧
    ∃ t, step (Bench.writeBuilt .receive none [.ret [0xFF]]) = .next t ∧ t.trace = [] ++ [.rxRead 0 8 [0xFF]] :=
  ⟨⟨_, rfl, rfl⟩, ⟨_, rfl, rfl⟩, _, rfl, rfl⟩

/-- States of each operation that meet the invariant, at the step that transmits. -/
theorem witness_consistent_reset : Consistent (Bench.idle [] [.ret []]).placeResetTransmit :=
  ⟨by decide, by decide, ⟨rfl, rfl, rfl, rfl, rfl, rfl, rfl⟩, ⟨115200, rfl, by decide⟩, rfl, rfl, rfl⟩

theorem witness_consistent_write : Consistent (Bench.writeBuilt .transmit none [.ret []]) :=
  ⟨by decide, by decide, [0x33], rfl, rfl, rfl, rfl, rfl, rfl, rfl, by decide, by decide⟩

theorem witness_consistent_read : Consistent (Bench.idle [] [.ret []]).placeSlotTransmit :=
  ⟨by decide, by decide, 1, rfl, rfl, rfl, .inr rfl, 0, 0, 0, [], rfl, by decide, rfl, rfl, by decide, rfl, rfl⟩

theorem witness_OnlyPatternsAreTransmitted :
    (∃ t, step (Bench.idle [] [.ret []]).placeResetTransmit = .next t ∧ t.trace = [] ++ [.txWrite 0 [0xF0]]) ∧
    (∃ t, step (Bench.idle [] [.ret []]).placeSlotTransmit = .next t ∧ t.trace = [] ++ [.txWrite 0 [0xFF]]) ∧
    (∃ t, step (Bench.writeBuilt .transmit none [.ret []]) = .next t ∧
      t.trace = [] ++ [.txWrite 0 [0xFF, 0xFF, 0x80, 0x80, 0xFF, 0xFF, 0x80, 0x80]]) ∧
    ∃ t, step (Bench.idle [] [.fail]).placeSlotTransmit = .next t ∧ t.trace = [] ++ [.failed 0 (.txWrite [0xFF])] :=
  ⟨⟨_, rfl, rfl⟩, ⟨_, rfl, rfl⟩, ⟨_, rfl, rfl⟩, _, rfl, rfl⟩

/-- A step that changes BAUD by a SetBaud, one whose SetBaud fails, and one outside RESET. -/
theorem witness_OnlyResetUsesBaud :
    (∃ t, step (Bench.resetRestore [.ret []]) = .next t ∧ t.baud ≠ (Bench.resetRestore [.ret []]).baud ∧
      t.trace = [] ++ [.setBaud 0 115200]) ∧
    (∃ t, step (Bench.resetRestore [.fail]) = .next t ∧ t.trace = [] ++ [.failed 0 (.setBaud 115200)]) ∧
    ∃ t, step (Bench.readReceive [.ret []]) = .next t ∧ (Bench.readReceive [.ret []]).phase.op ≠ some .reset :=
  ⟨⟨_, rfl, by decide, rfl⟩, ⟨_, rfl, rfl⟩, _, rfl, by decide⟩

theorem witness_ParametersAreNeverWritten :
    (∃ t, step (Bench.readReceive [.ret []]) = .next t) ∧ ∃ t, exec (.serialize 0x33) State.reset = .next t :=
  ⟨⟨_, rfl⟩, _, rfl⟩

theorem witness_ResetPerformsItsFiveSteps :
    Quiet (Bench.idle [] [.ret [], .ret [], .ret [0x70], .ret []]) ∧
    (Bench.idle [] [.ret [], .ret [], .ret [0x70], .ret []]).env = [.ret [], .ret [], .ret [0x70], .ret []] := by decide

/-- The boundary answers: none, RESET_PATTERN itself, its two neighbours. -/
theorem witness_NoPresenceExactlyWhenSameOrNothing :
    let s := (Bench.idle [] []).placeEcho 0xF0
    s.phase = .reset .decide ∧ s.txBuf = some [0xF0] ∧ s.rxBuf = some [0xF0] ∧ ([0xF0] : List Byte).length ≤ 1 ∧
    ([0xF0] : List Byte)[0]? = some s.params.resetPattern ∧
    { s with rxBuf := some [] }.rxBuf = some [] ∧ ([] : List Byte).length < 1 ∧
    ¬ (([0xF1] : List Byte).length < 1 ∨ ([0xF1] : List Byte)[0]? = some s.params.resetPattern) ∧
    ¬ (([0xEF] : List Byte).length < 1 ∨ ([0xEF] : List Byte)[0]? = some s.params.resetPattern) := by decide

theorem witness_EchoRowsDeliverTheVerdict :
    let s := (Bench.idle [] []).placeEcho 0xF0
    let u := (Bench.idle [] []).placeEcho 0xF1
    s.phase = .reset .decide ∧ s.txBuf = some [0xF0] ∧ s.rxBuf = some [0xF0] ∧ (0xF0 : Byte) = s.params.resetPattern ∧
    u.phase = .reset .decide ∧ u.txBuf = some [0xF0] ∧ u.rxBuf = some [0xF1] ∧
    (0xF1 : Byte) ≠ u.params.resetPattern := by decide

theorem witness_TxpResetTransmitsTheResetPattern :
    (Bench.idle [] [.ret []]).placeResetTransmit.phase = .reset .transmit ∧
    (Bench.idle [] [.ret []]).placeResetTransmit.env = .ret [] :: [] ∧
    (Bench.idle [] [.fail]).placeResetTransmit.phase = .reset .transmit ∧
    (Bench.idle [] [.fail]).placeResetTransmit.env = .fail :: [] := by decide

theorem witness_ResetRestoresBaudOnEveryPath : Quiet State.reset := by decide

/-- After step 1, its SetBaud returned or failed, and at step 5. -/
theorem witness_BaudIsResetBaudUntilRestored :
    (Quiet (Bench.idle [] [.fail]) ∧ ∃ u v, exec .reset (Bench.idle [] [.fail]) = .next u ∧ Runs 1 u v ∧
      v.results = [] ∧ v.phase ≠ .reset .decide) ∧
    Quiet (Bench.idle [] [.ret [], .ret [], .ret [0x70], .ret []]) ∧
    ∃ u v w, exec .reset (Bench.idle [] [.ret [], .ret [], .ret [0x70], .ret []]) = .next u ∧ Runs 1 u v ∧
      v.results = [] ∧ v.phase ≠ .reset .decide ∧ Runs 4 u w ∧ w.results = [] ∧ w.phase = .reset .decide :=
  ⟨⟨by decide, _, _, rfl, rfl, rfl, by decide⟩, by decide, _, _, _, rfl, rfl, rfl, by decide, rfl, rfl, rfl⟩

theorem witness_ResetPassesATransportFaultOn :
    Quiet (Bench.idle [] [.fail, .ret []]) ∧ (Bench.idle [] [.fail, .ret []]).env = .fail :: .ret [] :: [] ∧
    Quiet (Bench.idle [] [.ret [], .fail, .ret []]) ∧
    Quiet (Bench.idle [] [.ret [], .ret [], .fail, .ret []]) ∧
    Quiet (Bench.idle [] [.ret [], .ret [], .ret [0x70], .fail]) ∧
    (Bench.idle [] [.ret [], .ret [], .ret [0x70], .fail]).env =
      .ret [] :: .ret [] :: .ret [0x70] :: .fail :: [] := by decide

theorem witness_WriteSendsItsFrameAndCompares :
    Quiet State.reset ∧ Quiet (Bench.idle [] [.ret [], .ret [0xFF]]) ∧ ([0x33] : List Byte) ≠ [] ∧
    (Bench.idle [] [.ret [], .ret [0xFF]]).env = .ret [] :: .ret [0xFF] :: [] := by decide

/-- The comparison on an equal answer, on a prefix, and on one that differs in the last byte. -/
theorem witness_CollisionExactlyWhenDifferent :
    let tx : List Byte := [0xFF, 0xFF, 0x80, 0x80, 0xFF, 0xFF, 0x80, 0x80]
    let s := Bench.writeBuilt .compare (some tx) []
    let u := Bench.writeBuilt .compare (some []) []
    let v := Bench.writeBuilt .compare (some [0xFF, 0xFF, 0x80, 0x80, 0xFF, 0xFF, 0x80, 0x00]) []
    s.phase = .write .compare ∧ s.txBuf = some tx ∧ s.rxBuf = some tx ∧ tx.length ≤ tx.length ∧
    u.phase = .write .compare ∧ u.txBuf = some tx ∧ u.rxBuf = some [] ∧ ([] : List Byte).length < tx.length ∧
    v.phase = .write .compare ∧ v.rxBuf = some [0xFF, 0xFF, 0x80, 0x80, 0xFF, 0xFF, 0x80, 0x00] ∧
    tx[7]? = some 0x80 ∧ (0x80 : Byte) ≠ 0x00 := by decide

/-- Bit 0 and bit 7 of the byte 0x80. -/
theorem witness_PatternsJoinTheFrame :
    let s := (Bench.idle [] []).placeFrameBit 0x80
    let u := { s with bitIdx := some 7 }
    s.phase = .write .build ∧ s.txBuf = some [] ∧ s.byteIdx = some 0 ∧ s.bitIdx = some 0 ∧
    s.callResult = some (.patterns (serialize s.params 0x80)) ∧
    (serialize s.params 0x80)[0]? = some s.params.zeroPattern ∧
    u.phase = .write .build ∧ u.txBuf = some [] ∧ u.byteIdx = some 0 ∧ u.bitIdx = some 7 ∧
    u.callResult = some (.patterns (serialize s.params 0x80)) ∧ (serialize s.params 0x80)[7]? = some 0xFF := by decide

theorem witness_NineStepsSerializeAByte :
    let s := { (Bench.idle [] []).placeFrameBit 0x80 with callResult := none }
    s.phase = .write .build ∧ s.data = some [0x80] ∧ ([0x80] : List Byte)[0]? = some 0x80 ∧ s.byteIdx = some 0 ∧
    s.bitIdx = some 0 ∧ s.callResult = none ∧ s.txBuf = some [] := by decide

theorem witness_WritePassesATransportFaultOn :
    ([0x33] : List Byte) ≠ [] ∧ Quiet (Bench.idle [] [.fail]) ∧ (Bench.idle [] [.fail]).env = .fail :: [] ∧
    Quiet (Bench.idle [] [.ret [], .fail]) ∧ (Bench.idle [] [.ret [], .fail]).env = .ret [] :: .fail :: [] := by decide

/-- V52, and V59 for no byte at all. -/
theorem witness_ReadReturnsTheSampledBits :
    let es : List Byte := [0xFF, 0xFE, 0xFF, 0xFE, 0xFE, 0xFF, 0xFE, 0xFF]
    Quiet (Bench.idle [] (slotAnswers es)) ∧ es.length = 8 * 1 ∧ (∀ e ∈ es, decodeSlot e ≠ .malformed) ∧
    (Bench.idle [] (slotAnswers es)).env = slotAnswers es ++ [] ∧
    Quiet State.reset ∧ ([] : List Byte).length = 8 * 0 ∧ State.reset.env = slotAnswers [] ++ [] := by decide

/-- V55 and V58: the first slot malformed; three good slots, then no byte; and V56: the last slot malformed. -/
theorem witness_ReadAbortsAtTheFirstMalformedSlot :
    let es : List Byte := [0xFF, 0xFF, 0xFF]
    let es7 : List Byte := [0xFF, 0xFF, 0xFF, 0xFF, 0xFF, 0xFF, 0xFF]
    Quiet (Bench.idle [] [.ret [], .ret [0x00]]) ∧ ([] : List Byte).length < 8 * 1 ∧ decodeSlot 0x00 = .malformed ∧
    (Bench.idle [] [.ret [], .ret [0x00]]).env = slotAnswers [] ++ .ret [] :: .ret [0x00] :: [] ∧
    Quiet (Bench.idle [] (slotAnswers es ++ [.ret [], .ret []])) ∧ es.length < 8 * 1 ∧
    (∀ e ∈ es, decodeSlot e ≠ .malformed) ∧
    es7.length < 8 * 1 ∧ (∀ e ∈ es7, decodeSlot e ≠ .malformed) ∧ decodeSlot 0xEF = .malformed := by decide

/-- The first slot of a byte, and the last. -/
theorem witness_FiveStepsReadASlot :
    let s := { (Bench.idle [] [.ret [], .ret [0xF1]]).placeSlotTransmit with callResult := none }
    let u := { s with bitIdx := some 7 }
    s.phase = .read .transmit ∧ s.callResult = none ∧ s.byteIdx = some 0 ∧ s.bitIdx = some 0 ∧ s.acc = some 0 ∧
    s.out = some [] ∧ s.env = .ret [] :: .ret [0xF1] :: [] ∧ decodeSlot 0xF1 = .bit true ∧
    u.phase = .read .transmit ∧ u.bitIdx = some 7 ∧ u.env = .ret [] :: .ret [0xF1] :: [] := by decide

/-- A one in the last slot of a byte, and a zero. -/
theorem witness_BitRowsPlaceTheBit :
    let s := Bench.lastSlot 0xF1
    let u := Bench.lastSlot 0xFE
    s.phase = .read .decode ∧ s.rxBuf = some [bit1Byte 0b000] ∧ s.callResult = some (.slot (.bit true)) ∧
    s.byteIdx = some 0 ∧ s.bitIdx = some 7 ∧ s.acc = some 0x7F ∧ s.out = some [] ∧
    u.phase = .read .decode ∧ u.rxBuf = some [bit0Byte 0b111] ∧ u.callResult = some (.slot (.bit false)) ∧
    u.bitIdx = some 7 := by decide

theorem witness_MalformedRowsEndTheRead :
    let s := Bench.lastSlot 0x7F
    s.phase = .read .decode ∧ s.txBuf = some [0xFF] ∧ s.callResult = some (.slot .malformed) ∧
    s.rxBuf = some [bad7Byte 0b1111111] ∧
    (Bench.lastSlot 0xBF).rxBuf = some [bad6Byte 0b111111] ∧
    (Bench.lastSlot 0xBF).callResult = some (.slot .malformed) ∧
    (Bench.lastSlot 0xDF).rxBuf = some [bad5Byte 0b11111] ∧
    (Bench.lastSlot 0xDF).callResult = some (.slot .malformed) ∧
    (Bench.lastSlot 0xEF).rxBuf = some [bad4Byte 0b1111] ∧
    (Bench.lastSlot 0xEF).callResult = some (.slot .malformed) := by decide

theorem witness_TxpOneOpensAReadSlot :
    let s := (Bench.idle [] [.ret []]).placeSlotTransmit
    let u := (Bench.idle [] [.fail]).placeSlotTransmit
    s.phase = .read .transmit ∧ s.callResult = some (.pattern 0xFF) ∧ s.env = .ret [] :: [] ∧
    u.phase = .read .transmit ∧ u.callResult = some (.pattern 0xFF) ∧ u.env = .fail :: [] := by decide

theorem witness_ReadPassesATransportFaultOn :
    let es : List Byte := [0xFF, 0xFE, 0xF0]
    Quiet (Bench.idle [] (slotAnswers es ++ [.fail])) ∧ es.length < 8 * 1 ∧ (∀ e ∈ es, decodeSlot e ≠ .malformed) ∧
    (Bench.idle [] (slotAnswers es ++ [.fail])).env = slotAnswers es ++ .fail :: [] ∧
    Quiet (Bench.idle [] (slotAnswers es ++ [.ret [], .fail])) ∧
    (Bench.idle [] (slotAnswers es ++ [.ret [], .fail])).env = slotAnswers es ++ .ret [] :: .fail :: [] := by decide

/-- A step that delivers each kind of result. -/
theorem witness_EachErrorHasOneOperation :
    (∃ t, step ((Bench.idle [] []).placeEcho 0xF0) = .next t ∧
      t.results = [] ++ [.err .noPresence ⟨[0xF0], [0xF0]⟩]) ∧
    (∃ t, step (Bench.lastSlot 0xEF) = .next t ∧ t.results = [] ++ [.err .symbolError ⟨[0xFF], [0xEF]⟩]) ∧
    (∃ t, step (Bench.writeBuilt .compare (some []) []) = .next t ∧ t.results = [] ++
      [.err .collision ⟨[0xFF, 0xFF, 0x80, 0x80, 0xFF, 0xFF, 0x80, 0x80], []⟩]) ∧
    (∃ t, step ((Bench.idle [] []).placeEcho 0x70) = .next t ∧ t.results = [] ++ [.ok]) ∧
    ∃ t, step { Bench.idle [] [] with phase := .read .byte, count := some 1, byteIdx := some 1, out := some [0xA5] } =
      .next t ∧ t.results = [] ++ [.okBytes [0xA5]] :=
  ⟨⟨_, rfl, rfl⟩, ⟨_, rfl, rfl⟩, ⟨_, rfl, rfl⟩, ⟨_, rfl, rfl⟩, _, rfl, rfl⟩

theorem witness_ErrorsCarryTheBuffers :
    ∃ t, step (Bench.lastSlot 0xEF) = .next t ∧
      t.results = (Bench.lastSlot 0xEF).results ++ [.err .symbolError ⟨[0xFF], [0xEF]⟩] := ⟨_, rfl, rfl⟩

theorem witness_FrameOfCommands :
    (∃ t, exec .reset State.reset = .next t) ∧ (∃ t, exec (.write [0x33]) State.reset = .next t) ∧
    ∃ t, exec (.read 1) State.reset = .next t := ⟨⟨_, rfl⟩, ⟨_, rfl⟩, _, rfl⟩

theorem witness_FrameOfPatternRows :
    (∃ t, exec .txpOne ((Bench.idle [] []).placeFrameBit 0xFF) = .next t) ∧
    (∃ t, exec .txpOne (Bench.idle [] [.ret []]).placeSlotTransmit = .next t) ∧
    (∃ t, exec .txpOne (Bench.idle [] [.fail]).placeSlotTransmit = .next t) ∧
    (∃ t, exec .txpZero ((Bench.idle [] []).placeFrameBit 0x00) = .next t) ∧
    ∃ t, exec .txpReset (Bench.idle [] [.ret []]).placeResetTransmit = .next t :=
  ⟨⟨_, rfl⟩, ⟨_, rfl⟩, ⟨_, rfl⟩, ⟨_, rfl⟩, _, rfl⟩

theorem witness_FrameOfSlotRows :
    (∃ t, exec (.rxslotBit1 0b111) (Bench.lastSlot 0xFF) = .next t) ∧
    (∃ t, exec (.rxslotBit0 0b000) (Bench.lastSlot 0xF0) = .next t) ∧
    (∃ t, exec (.rxslotBad7 0) (Bench.lastSlot 0x00) = .next t) ∧
    (∃ t, exec (.rxslotBad6 0) (Bench.lastSlot 0x80) = .next t) ∧
    (∃ t, exec (.rxslotBad5 0) (Bench.lastSlot 0xC0) = .next t) ∧
    ∃ t, exec (.rxslotBad4 0) (Bench.lastSlot 0xE0) = .next t :=
  ⟨⟨_, rfl⟩, ⟨_, rfl⟩, ⟨_, rfl⟩, ⟨_, rfl⟩, ⟨_, rfl⟩, _, rfl⟩

theorem witness_FrameOfEchoRows :
    (∃ t, exec .rxrstNoPresence ((Bench.idle [] []).placeEcho 0xF0) = .next t) ∧
    ∃ t, exec (.rxrstPresence 0x00) ((Bench.idle [] []).placeEcho 0x00) = .next t := ⟨⟨_, rfl⟩, _, rfl⟩

theorem witness_InitialStateMeetsTheInvariant : Config.Params.default.Admissible := by decide

/-- A consistent state in each operation from which a step answers. -/
theorem witness_EveryStepKeepsTheInvariant :
    (Consistent (Bench.idle [] [.ret []]).placeResetTransmit ∧
      ∃ t, step (Bench.idle [] [.ret []]).placeResetTransmit = .next t) ∧
    (Consistent (Bench.writeBuilt .transmit none [.ret []]) ∧
      ∃ t, step (Bench.writeBuilt .transmit none [.ret []]) = .next t) ∧
    (Consistent (Bench.idle [] [.ret []]).placeSlotTransmit ∧
      ∃ t, step (Bench.idle [] [.ret []]).placeSlotTransmit = .next t) :=
  ⟨⟨witness_consistent_reset, _, rfl⟩, ⟨witness_consistent_write, _, rfl⟩, witness_consistent_read, _, rfl⟩

/-- The idle block with the reserved selector, and an operation in flight. -/
theorem witness_NoOperationGetsStuck :
    Consistent (Bench.idle [⟨0b11, [], 0⟩] []) ∧ Consistent (Bench.idle [] [.ret []]).placeResetTransmit :=
  ⟨⟨by decide, by decide, rfl, rfl⟩, witness_consistent_reset⟩

theorem witness_EveryOperationEndsWithOneResult :
    Consistent (Bench.writeBuilt .transmit none [.ret []]) ∧ (Bench.writeBuilt .transmit none [.ret []]).phase ≠ .idle :=
  ⟨witness_consistent_write, by decide⟩

/-- V26: bit 4, released when sent, pulled low. -/
theorem witness_PresenceIsALinePulledLow :
    let s := (Bench.idle [] []).placeEcho 0xE0
    s.phase = .reset .decide ∧ s.rxBuf = some [0xE0] ∧ WiredAnd s.params.resetPattern 0xE0 ∧
    ∃ t, exec (.rxrstPresence 0xE0) s = .next t ∧ t.results = s.results ++ [.ok] :=
  ⟨rfl, rfl, by decide, _, rfl, rfl⟩
end

section
/-! PROOFS. The invariant: one rule for each transport primitive, what Consistent says at each position of the sequencer,
and that from a consistent state an operation in flight steps to a consistent state. -/

namespace Sys2Proof.Machine

/-! ## A rule for each primitive: what holds after the call when it returns and when it fails, holds after it -/

section Primitives
variable {P : State → Prop} {s : State}

theorem setBaud_rule {r : Nat} {ok bad : State → State}
    (hok : P (ok ((s.popAnswer.record (.setBaud s.params.handle r)).withBaud r)))
    (hbad : P (bad (s.popAnswer.record (.failed s.params.handle (.setBaud r))))) : P (setBaud r ok bad s) := by
  rcases setBaud_cases r ok bad s with ⟨_, -, h⟩ | ⟨-, h⟩
  · rwa [h]
  · rwa [h]

theorem txWrite_rule {buf : List Byte} {ok bad : State → State}
    (hok : P (ok (s.popAnswer.record (.txWrite s.params.handle buf))))
    (hbad : P (bad (s.popAnswer.record (.failed s.params.handle (.txWrite buf))))) : P (txWrite buf ok bad s) := by
  rcases txWrite_cases buf ok bad s with ⟨_, -, h⟩ | ⟨-, h⟩
  · rwa [h]
  · rwa [h]

theorem rxRead_rule {n : Nat} {ok : List Byte → State → State} {bad : State → State}
    (hok : ∀ rx, rx.length ≤ n → P (ok rx (s.popAnswer.record (.rxRead s.params.handle n rx))))
    (hbad : P (bad (s.popAnswer.record (.failed s.params.handle (.rxRead n))))) : P (rxRead n ok bad s) := by
  rcases rxRead_cases n ok bad s with ⟨bs, -, h⟩ | ⟨-, h⟩
  · rw [h]
    exact hok _ (List.length_take_le n bs)
  · rwa [h]

end Primitives

/-! ## The frame under construction, and the byte under assembly -/

theorem serialize_getElem? (p : Config.Params) (b : Byte) (i : Fin 8) :
    (serialize p b)[i.val]? = some (encodeBit p (bitOf b i)) := by
  fin_cases i <;> rfl

theorem serialize_take_succ (p : Config.Params) (b : Byte) (i : Fin 8) :
    (serialize p b).take (i.val + 1) = (serialize p b).take i.val ++ [encodeBit p (bitOf b i)] := by
  simp [List.take_add_one, serialize_getElem?]

theorem frame_take_succ (p : Config.Params) {d : List Byte} {k : Nat} {b : Byte} (h : d[k]? = some b) :
    frame p (d.take (k + 1)) = frame p (d.take k) ++ serialize p b := by
  simp [frame, List.take_add_one, h]

theorem frame_length (p : Config.Params) (d : List Byte) : (frame p d).length = 8 * d.length := by
  induction d with
  | nil => rfl
  | cons b d ih =>
    have hb : (serialize p b).length = 8 := rfl
    have hcons : frame p (b :: d) = serialize p b ++ frame p d := rfl
    rw [hcons, List.length_append, hb, ih, List.length_cons]
    omega

theorem frame_eq_nil_iff (p : Config.Params) (d : List Byte) : frame p d = [] ↔ d = [] := by
  rw [← List.length_eq_zero_iff, ← List.length_eq_zero_iff, frame_length]
  omega

/-- Before bit 7 the next position is one further. -/
theorem val_succ_of_ne_seven {i : Fin 8} (h : i ≠ 7) : (i + 1).val = i.val + 1 := by
  revert h
  decide +revert

/-- A bit put at position `i` keeps the byte below `2 ^ (i + 1)`. -/
theorem placeBit_toNat_lt {a : Byte} {i : Fin 8} (v : ProtocolBit) (h : a.toNat < 2 ^ i.val) :
    (placeBit a v i).toNat < 2 ^ (i.val + 1) := by
  have hv : (BitVec.ofBool v).toNat < 2 := by cases v <;> decide
  unfold placeBit
  rw [BitVec.toNat_or, BitVec.toNat_shiftLeft, BitVec.toNat_setWidth]
  refine Nat.or_lt_two_pow (h.trans (by gcongr <;> omega)) ((Nat.mod_le _ _).trans_lt ?_)
  rw [Nat.shiftLeft_eq, Nat.pow_succ, Nat.mod_eq_of_lt (hv.trans (by decide)), Nat.mul_comm]
  exact (Nat.mul_lt_mul_left (Nat.two_pow_pos _)).mpr hv

/-! ## What Consistent says at each position -/

section Positions
variable {s : State}

theorem consistent_idle (h : s.phase = .idle) : Consistent s ↔ s.params.Admissible ∧ 0 < s.baud ∧ Quiet s := by
  simp only [Consistent, h]

theorem consistent_reset {n : ResetStep} (h : s.phase = .reset n) :
    Consistent s ↔ s.params.Admissible ∧ 0 < s.baud ∧ ResetInv n s := by
  simp only [Consistent, h]

theorem consistent_write {n : WriteStep} (h : s.phase = .write n) :
    Consistent s ↔ s.params.Admissible ∧ 0 < s.baud ∧ ∃ d, WriteInv n d s := by
  simp only [Consistent, h]

theorem consistent_read {n : ReadStep} (h : s.phase = .read n) :
    Consistent s ↔ s.params.Admissible ∧ 0 < s.baud ∧ ∃ c, ReadInv n c s := by
  simp only [Consistent, h]

/-- Delivering a result restores the idle invariant. -/
theorem consistent_deliver (r : Result) (ha : s.params.Admissible) (hb : 0 < s.baud) : Consistent (deliver r s) :=
  (consistent_idle rfl).mpr ⟨ha, hb, deliver_quiet r s⟩

/-- A restoring SetBaud that fails leaves BAUD free, but positive. -/
theorem consistent_restoreFails (ha : s.params.Admissible) : Consistent (restoreFails s) :=
  consistent_deliver .transportFault (s := s.freeBaud) ha (Nat.succ_pos _)

/-- In the quiet block every transient register is empty. -/
theorem Quiet.registers (h : Quiet s) :
    s.savedBaud = none ∧ s.txBuf = none ∧ s.rxBuf = none ∧ NoWriteReadRegs s := by
  rw [← h.2]
  exact ⟨rfl, rfl, rfl, rfl, rfl, rfl, rfl, rfl, rfl, rfl⟩

/-- The parameters of the state before the step are the ones of the state after it, so they stay admissible. -/
theorem consistent_of_resetInv {t : State} {n : ResetStep} (ha : s.params.Admissible) (hpar : t.params = s.params)
    (hp : t.phase = .reset n) (hb : 0 < t.baud) (hi : ResetInv n t) : Consistent t :=
  (consistent_reset hp).mpr ⟨hpar ▸ ha, hb, hi⟩

/-- The same for WRITE, which leaves BAUD alone. -/
theorem consistent_of_writeInv {t : State} {n : WriteStep} {d : List Byte} (ha : s.params.Admissible) (hb : 0 < s.baud)
    (hpar : t.params = s.params) (hbaud : t.baud = s.baud) (hp : t.phase = .write n) (hi : WriteInv n d t) :
    Consistent t :=
  (consistent_write hp).mpr ⟨hpar ▸ ha, hbaud ▸ hb, d, hi⟩

/-- The same for READ, which leaves BAUD alone. -/
theorem consistent_of_readInv {t : State} {n : ReadStep} {c : Nat} (ha : s.params.Admissible) (hb : 0 < s.baud)
    (hpar : t.params = s.params) (hbaud : t.baud = s.baud) (hp : t.phase = .read n) (hi : ReadInv n c t) :
    Consistent t :=
  (consistent_read hp).mpr ⟨hpar ▸ ha, hbaud ▸ hb, c, hi⟩

section InFlight
variable (ha : s.params.Admissible) (hb : 0 < s.baud)
include ha hb

/-- A RESET in flight takes its next step, to the position that the invariant gives it then. -/
theorem resetInv_step {n : ResetStep} (hp : s.phase = .reset n) (hi : ResetInv n s) :
    ∃ t, step s = .next t ∧ Consistent t := by
  obtain ⟨hregs, hn⟩ := hi
  have hslow : 0 < s.params.resetBaud := ha.2.2
  have hto {t : State} {m : ResetStep} := consistent_of_resetInv (t := t) (n := m) ha
  cases n with
  | save =>
    obtain ⟨-, htx, hrx⟩ := hn
    refine ⟨_, step_reset_save hp, setBaud_rule (hto (by simp) rfl hslow ?_) (hto (by simp) rfl (by simpa) ?_)⟩
    all_goals simpa [ResetInv, NoWriteReadRegs, htx, hrx, hb] using hregs
  | transmit =>
    obtain ⟨hsaved, hbaud, htx, hrx⟩ := hn
    refine ⟨_, step_reset_transmit hp,
      txWrite_rule (hto (by simp) rfl (by simpa) ?_) (hto (by simp) rfl (by simpa) ?_)⟩
    all_goals simpa [ResetInv, NoWriteReadRegs, hsaved, hbaud, hrx] using hregs
  | receive =>
    obtain ⟨hsaved, hbaud, htx, -⟩ := hn
    refine ⟨_, step_reset_receive hp,
      rxRead_rule (fun rx hlen => hto (by simp) rfl (by simpa) ?_) (hto (by simp) rfl (by simpa) ?_)⟩
    · simpa [ResetInv, NoWriteReadRegs, hsaved, hbaud, htx, hlen] using hregs
    · simpa [ResetInv, NoWriteReadRegs, hsaved, hbaud] using hregs
  | restore =>
    obtain ⟨⟨b, hsaved, hpos⟩, -, htx, hrx⟩ := hn
    refine ⟨_, step_reset_restore hp hsaved, setBaud_rule (hto (by simp) rfl hpos ?_)
      (consistent_restoreFails (by simpa using ha))⟩
    simpa [ResetInv, NoWriteReadRegs, hsaved, htx, hrx] using hregs
  | restoreFailed =>
    obtain ⟨⟨b, hsaved, hpos⟩, -⟩ := hn
    exact ⟨_, step_reset_restoreFailed hp hsaved, setBaud_rule
      (consistent_deliver _ (by simpa using ha) hpos) (consistent_restoreFails (by simpa using ha))⟩
  | decide =>
    obtain ⟨-, htx, rx, hrx, hlen⟩ := hn
    exact ⟨_, step_reset_decide hp htx hrx hlen, consistent_deliver _ ha hb⟩

/-- A WRITE in flight takes its next step, to the position that the invariant gives it then. -/
theorem writeInv_step {n : WriteStep} {d : List Byte} (hp : s.phase = .write n) (hi : WriteInv n d s) :
    ∃ t, step s = .next t ∧ Consistent t := by
  obtain ⟨hsaved, hcount, hacc, hout, hdata, hn⟩ := hi
  have hto {t : State} {m : WriteStep} := consistent_of_writeInv (t := t) (n := m) (d := d) ha hb
  cases n with
  | start =>
    obtain ⟨-, hrx, -, -, hcall⟩ := hn
    refine ⟨_, step_write_start hp, hto rfl rfl rfl ?_⟩
    simp [WriteInv, hsaved, hcount, hacc, hout, hdata, hrx, hcall, frame]
  | build =>
    obtain ⟨hrx, k, i, hk, hbit, hle, ⟨rfl, hcall, htx⟩ | ⟨b, hbyte, hcall, htx⟩⟩ := hn
    · rcases hbyte : d[k]? with _ | b
      · have hall : d.take k = d := List.take_of_length_le (List.getElem?_eq_none_iff.mp hbyte)
        rw [hall] at htx
        refine ⟨_, step_write_end hp hdata hk hbit hbyte htx, ?_⟩
        split
        · exact consistent_deliver _ ha hb
        · next hne =>
          refine hto rfl rfl rfl ?_
          rw [frame_eq_nil_iff] at hne
          simp [WriteInv, hsaved, hcount, hacc, hout, hdata, hrx, hcall, htx, hne]
      · refine ⟨_, step_write_call hp hdata hk hbit hbyte hcall, hto rfl rfl hp ?_⟩
        simp [WriteInv, hsaved, hcount, hacc, hout, hdata, hrx, hk, hbit, hle, hbyte, htx]
    · refine ⟨_, step_write_pattern hp hdata hk hbit hbyte hcall htx, hto rfl rfl hp ?_⟩
      have hlt : k < d.length := (List.getElem?_eq_some_iff.mp hbyte).1
      by_cases h7 : i = 7
      · subst h7
        simpa [WriteInv, hsaved, hcount, hacc, hout, hdata, hrx, frame_take_succ _ hbyte] using
          ⟨hlt, (serialize_take_succ s.params b 7).symm⟩
      · simp [WriteInv, hsaved, hcount, hacc, hout, hdata, hrx, h7, hle, hbyte, hcall, val_succ_of_ne_seven h7,
          serialize_take_succ]
  | transmit =>
    obtain ⟨hrx, hcall, hne, htx⟩ := hn
    refine ⟨_, step_write_transmit hp htx, txWrite_rule (hto (by simp) (by simp) rfl ?_)
      (consistent_deliver _ (by simpa using ha) (by simpa using hb))⟩
    simp [WriteInv, hsaved, hcount, hacc, hout, hdata, hrx, hcall, hne, htx]
  | receive =>
    obtain ⟨hrx, hcall, hne, htx⟩ := hn
    refine ⟨_, step_write_receive hp htx,
      rxRead_rule (fun rx hlen => hto (by simp) (by simp) rfl ?_)
      (consistent_deliver _ (by simpa using ha) (by simpa using hb))⟩
    rw [frame_length] at hlen
    simp [WriteInv, hsaved, hcount, hacc, hout, hdata, hcall, hne, htx, hlen]
  | compare =>
    obtain ⟨-, -, htx, rx, hrx, -⟩ := hn
    exact ⟨_, step_write_compare hp htx hrx, consistent_deliver _ ha hb⟩

/-- A READ in flight takes its next step, to the position that the invariant gives it then. -/
theorem readInv_step {n : ReadStep} {c : Nat} (hp : s.phase = .read n) (hi : ReadInv n c s) :
    ∃ t, step s = .next t ∧ Consistent t := by
  obtain ⟨hsaved, hdata, hcount, hn⟩ := hi
  have hto {t : State} {m : ReadStep} := consistent_of_readInv (t := t) (n := m) (c := c) ha hb
  cases n with
  | start =>
    obtain ⟨-, -, -, -, -, -, hcall⟩ := hn
    refine ⟨_, step_read_start hp, hto rfl rfl rfl ?_⟩
    simp [ReadInv, hsaved, hdata, hcount, hcall]
  | byte =>
    obtain ⟨hcall, k, o, hk, hle, ho, hlen⟩ := hn
    refine ⟨_, step_read_byte hp hcount hk ho, ?_⟩
    split
    · next hlt =>
      refine hto rfl rfl rfl ?_
      simp [ReadInv, SlotInv, hsaved, hdata, hcount, hcall, hk, hlt, ho, hlen]
    · exact consistent_deliver _ ha hb
  | transmit =>
    obtain ⟨hcall | hcall, hslot⟩ := hn
    · refine ⟨_, step_read_call hp hcall, hto rfl rfl hp ?_⟩
      simpa [ReadInv, SlotInv, hsaved, hdata, hcount] using hslot
    · refine ⟨_, step_read_transmit hp hcall, txWrite_rule (hto (by simp) (by simp) rfl ?_)
      (consistent_deliver _ (by simpa using ha) (by simpa using hb))⟩
      simpa [ReadInv, SlotInv, hsaved, hdata, hcount] using hslot
  | receive =>
    obtain ⟨hcall, htx, hslot⟩ := hn
    refine ⟨_, step_read_receive hp, rxRead_rule (fun rx hlen => hto (by simp) (by simp) rfl ?_)
      (consistent_deliver _ (by simpa using ha) (by simpa using hb))⟩
    simpa [ReadInv, SlotInv, hsaved, hdata, hcount, hcall, htx, hlen] using hslot
  | decode =>
    obtain ⟨htx, hslot, rx, hrx, hlen, hcall⟩ := hn
    rcases rx with _ | ⟨e, _ | ⟨_, _⟩⟩
    · exact ⟨_, step_read_empty hp htx hrx, consistent_deliver _ ha hb⟩
    · rcases hcall with hcall | ⟨e', he, hcall⟩
      · refine ⟨_, step_read_decode hp hrx hcall, hto rfl rfl hp ?_⟩
        simpa [ReadInv, SlotInv, hsaved, hdata, hcount, htx, hrx] using hslot
      · obtain rfl : e = e' := by simpa using he
        rcases hv : decodeSlot e with v | _
        · rw [hv] at hcall
          obtain ⟨k, i, a, o, hk, hlt, hbit, hacc, ha', ho, hol⟩ := hslot
          refine ⟨_, (step_read_bit hp hrx hv hcall).trans (acceptBit_eq v hacc hbit hk ho), ?_⟩
          by_cases h7 : i = 7
          · refine hto (m := .byte) rfl rfl (if_pos h7) ?_
            simp [ReadInv, hsaved, hdata, hcount, h7, hol]
            omega
          · refine hto (m := .transmit) rfl rfl (if_neg h7) ?_
            simp [ReadInv, SlotInv, hsaved, hdata, hcount, h7, hol, hlt, val_succ_of_ne_seven h7, placeBit_toNat_lt v ha']
        · rw [hv] at hcall
          exact ⟨_, step_read_malformed hp hrx htx hv hcall, consistent_deliver _ ha hb⟩
    · simp at hlen

end InFlight

/-- An idle step keeps the invariant: the command it accepts finds every other transient register empty. -/
theorem consistent_of_idle_step {t : State} (hp : s.phase = .idle) (hs : Consistent s) (h : step s = .next t) :
    Consistent t := by
  obtain ⟨ha, hb, hq⟩ := (consistent_idle hp).mp hs
  obtain ⟨hsaved, htx, hrx, hdata, hcount, hk, hbit, hacc, hout, hcall⟩ := hq.registers
  cases stepped_of_step h with
  | wait => exact hs
  | acceptReset => exact consistent_of_resetInv ha rfl rfl hb (by simp [ResetInv, NoWriteReadRegs, *])
  | @acceptWrite w => exact consistent_of_writeInv (d := w.data) ha hb rfl rfl rfl (by simp [WriteInv, *])
  | @acceptRead w => exact consistent_of_readInv (c := w.count) ha hb rfl rfl rfl (by simp [ReadInv, *])
  | _ => simp_all -- every other step is taken in flight

end Positions

/-- From a consistent state an operation in flight goes on, and stays consistent. -/
theorem consistent_step_inFlight {s : State} (hp : s.phase ≠ .idle) (hs : Consistent s) :
    ∃ t, step s = .next t ∧ Consistent t := by
  rcases hn : s.phase with _ | n | n | n
  · exact absurd hn hp
  · obtain ⟨ha, hb, hi⟩ := (consistent_reset hn).mp hs
    exact resetInv_step ha hb hn hi
  · obtain ⟨ha, hb, d, hi⟩ := (consistent_write hn).mp hs
    exact writeInv_step ha hb hn hi
  · obtain ⟨ha, hb, c, hi⟩ := (consistent_read hn).mp hs
    exact readInv_step ha hb hn hi

/-- Settles O56: an idle block accepts a command with its registers empty, and each step of RESET, WRITE and READ
answers a state that its own invariant describes. -/
theorem everyStepKeepsTheInvariant : Obligations.EveryStepKeepsTheInvariant := by
  intro s t hs h
  by_cases hp : s.phase = .idle
  · exact consistent_of_idle_step hp hs h
  · obtain ⟨u, hu, hc⟩ := consistent_step_inFlight hp hs
    obtain rfl : u = t := by simpa [hu] using h
    exact hc

/-- Settles O14: `open` writes each register once, and the idle block waits (`step_idle_wait`). -/
theorem initialisationLeavesAQuietBlock : Obligations.InitialisationLeavesAQuietBlock :=
  ⟨fun _ => ⟨rfl, rfl, ⟨rfl, rfl⟩, rfl, rfl, rfl⟩, rfl, rfl, rfl, fun _ => step_idle_wait⟩

/-- Settles O55: the block that `open` leaves is idle with its registers empty. -/
theorem initialStateMeetsTheInvariant : Obligations.InitialStateMeetsTheInvariant := by
  have hopen (p : Config.Params) (ha : p.Admissible) : Consistent (State.afterOpen p) :=
    (consistent_idle rfl).mpr ⟨ha, ha.2.1, rfl, rfl⟩
  refine ⟨fun p ha => ⟨hopen p ha, ⟨rfl, rfl⟩, ha.2.1, List.not_mem_nil⟩, hopen _ (by decide)⟩

end Sys2Proof.Machine
end

section
/-! PROOFS. What a step does not read: the recorded history, and outside RESET the register BAUD. -/

namespace Sys2Proof.Machine

/-- The same answer with `f` applied to the next state. -/
def mapNext (f : State → State) : StepOutcome → StepOutcome
  | .next s => .next (f s)
  | .fault r => .fault r
  | .refused r => .refused r

theorem mapNext_eq_next {f : State → State} {o : StepOutcome} {t : State} (h : mapNext f o = .next t) :
    ∃ u, o = .next u ∧ t = f u := by
  cases o with
  | next u => exact ⟨u, rfl, by simpa [mapNext] using h.symm⟩
  | fault r => simp [mapNext] at h
  | refused r => simp [mapNext] at h

/-- A change of what a step may fail to read: another rate, other coming commands, and an older history before the one
that is recorded. -/
structure Variation where
  baud    : Nat → Nat
  pending : List CmdWord → List CmdWord
  trace   : List Event
  results : List Result

/-- The state changed by `v`. -/
def State.vary (s : State) (v : Variation) : State :=
  { s with
    baud := v.baud s.baud
    pending := v.pending s.pending
    trace := v.trace ++ s.trace
    results := v.results ++ s.results }

section Vary
variable (v : Variation) (s : State)

@[simp] theorem State.vary_params : (s.vary v).params = s.params := rfl
@[simp] theorem State.vary_phase : (s.vary v).phase = s.phase := rfl
@[simp] theorem State.vary_savedBaud : (s.vary v).savedBaud = s.savedBaud := rfl
@[simp] theorem State.vary_txBuf : (s.vary v).txBuf = s.txBuf := rfl
@[simp] theorem State.vary_rxBuf : (s.vary v).rxBuf = s.rxBuf := rfl
@[simp] theorem State.vary_data : (s.vary v).data = s.data := rfl
@[simp] theorem State.vary_count : (s.vary v).count = s.count := rfl
@[simp] theorem State.vary_byteIdx : (s.vary v).byteIdx = s.byteIdx := rfl
@[simp] theorem State.vary_bitIdx : (s.vary v).bitIdx = s.bitIdx := rfl
@[simp] theorem State.vary_acc : (s.vary v).acc = s.acc := rfl
@[simp] theorem State.vary_out : (s.vary v).out = s.out := rfl
@[simp] theorem State.vary_callResult : (s.vary v).callResult = s.callResult := rfl
@[simp] theorem State.vary_answer : (s.vary v).answer = s.answer := rfl

/-! ### The shared operations -/

theorem State.vary_popAnswer : (s.vary v).popAnswer = s.popAnswer.vary v := by
  rcases h : s.env with _ | ⟨a, l⟩
  · simp [State.popAnswer, State.vary, h]
  · simp [State.popAnswer, State.vary, h]

theorem State.vary_record (e : Event) : (s.vary v).record e = (s.record e).vary v := by
  simp [State.record, State.vary]

theorem vary_deliver (r : Result) : deliver r (s.vary v) = (deliver r s).vary v := by
  simp [deliver, State.goto, State.clearTransients, State.vary]

variable {v s}

theorem vary_need {α : Type} (x : Option α) (r : Reg) {k k' : α → StepOutcome}
    (h : ∀ a, k' a = mapNext (·.vary v) (k a)) : need x r k' = mapNext (·.vary v) (need x r k) := by
  cases x with
  | none => rfl
  | some a => exact h a

theorem vary_txWrite (buf : List Byte) {ok bad : State → State} (hok : ∀ u, ok (u.vary v) = (ok u).vary v)
    (hbad : ∀ u, bad (u.vary v) = (bad u).vary v) : txWrite buf ok bad (s.vary v) = (txWrite buf ok bad s).vary v := by
  simp only [txWrite, State.vary_answer, State.vary_popAnswer, State.vary_params, State.vary_record]
  cases s.answer with
  | ret bs => exact hok _
  | fail => exact hbad _

theorem vary_rxRead (n : Nat) {ok : List Byte → State → State} {bad : State → State}
    (hok : ∀ rx u, ok rx (u.vary v) = (ok rx u).vary v) (hbad : ∀ u, bad (u.vary v) = (bad u).vary v) :
    rxRead n ok bad (s.vary v) = (rxRead n ok bad s).vary v := by
  simp only [rxRead, State.vary_answer, State.vary_popAnswer, State.vary_params, State.vary_record]
  cases s.answer with
  | ret bs => exact hok _ _
  | fail => exact hbad _

/-- SetBaud writes BAUD, so it is the same only where BAUD is. -/
theorem vary_setBaud (r : Nat) {ok bad : State → State} (hv : v.baud = id) (hok : ∀ u, ok (u.vary v) = (ok u).vary v)
    (hbad : ∀ u, bad (u.vary v) = (bad u).vary v) : setBaud r ok bad (s.vary v) = (setBaud r ok bad s).vary v := by
  have hw (u : State) : (u.vary v).withBaud r = (u.withBaud r).vary v := by simp [State.withBaud, State.vary, hv]
  simp only [setBaud, State.vary_answer, State.vary_popAnswer, State.vary_params, State.vary_record, hw]
  cases s.answer with
  | ret bs => exact hok _
  | fail => exact hbad _

theorem vary_raise (kind : ErrorKind) : raise kind (s.vary v) = mapNext (·.vary v) (raise kind s) :=
  vary_need _ _ fun _ => vary_need _ _ fun _ => congrArg _ (vary_deliver ..)

theorem vary_accept {f : State → State} (hf : ∀ u, f (u.vary v) = (f u).vary v) :
    accept f (s.vary v) = mapNext (·.vary v) (accept f s) := by
  simp only [accept, State.vary_phase, hf]
  cases s.phase <;> rfl

/-! ### The rows -/

theorem vary_appendPattern (b : Byte) : appendPattern b (s.vary v) = mapNext (·.vary v) (appendPattern b s) := by
  refine vary_need _ _ fun tx => vary_need _ _ fun k => vary_need _ _ fun i => ?_
  rw [State.vary_callResult]
  rcases s.callResult with _ | _ | bs | _
  · rfl
  · rfl
  · dsimp only
    split
    · simp only [State.nextFrameBit, mapNext]
      cases nextBit i <;> rfl
    · rfl
  · rfl

theorem vary_transmitSlot : transmitSlot (s.vary v) = mapNext (·.vary v) (transmitSlot s) := by
  unfold transmitSlot
  rw [State.vary_callResult]
  rcases s.callResult with _ | b | _ | _
  · rfl
  · dsimp only
    split
    · exact congrArg _ (vary_txWrite (s := { s with txBuf := some [b], callResult := none }) _ (fun _ => rfl)
        (vary_deliver v · _))
    · rfl
  · rfl
  · rfl

theorem vary_resetVerdict (e : Byte) : resetVerdict e (s.vary v) = mapNext (·.vary v) (resetVerdict e s) := by
  simp only [resetVerdict, State.vary_phase, State.vary_rxBuf, State.vary_params, vary_raise, vary_deliver]
  split
  · split <;> rfl
  · rfl

theorem vary_acceptBit (b : ProtocolBit) : acceptBit b (s.vary v) = mapNext (·.vary v) (acceptBit b s) := by
  refine vary_need _ _ fun a => vary_need _ _ fun i => vary_need _ _ fun k => vary_need _ _ fun o => ?_
  cases nextBit i <;> rfl

theorem vary_slotBit (e : Byte) (b : ProtocolBit) : slotBit e b (s.vary v) = mapNext (·.vary v) (slotBit e b s) := by
  have hready : slotReady e (.bit b) (s.vary v) = slotReady e (.bit b) s := rfl
  simp only [slotBit, hready, vary_acceptBit]
  cases slotReady e (.bit b) s <;> rfl

theorem vary_slotBad (e : Byte) : slotBad e (s.vary v) = mapNext (·.vary v) (slotBad e s) := by
  have hready : slotReady e .malformed (s.vary v) = slotReady e .malformed s := rfl
  simp only [slotBad, hready, vary_raise]
  cases slotReady e .malformed s <;> rfl

/-- An instruction reads neither BAUD nor the coming commands nor the history. -/
theorem vary_exec (i : Instr) : exec i (s.vary v) = mapNext (·.vary v) (exec i s) := by
  cases i with
  | reset => exact vary_accept (f := fun s => s.goto (.reset .save)) fun _ => rfl
  | write data => exact vary_accept (f := fun s => { s.goto (.write .start) with data := some data }) fun _ => rfl
  | read count => exact vary_accept (f := fun s => { s.goto (.read .start) with count := some count }) fun _ => rfl
  | cmdReserved => rfl
  | encodeBit bit => rfl
  | decodeSlot e => rfl
  | serialize b => rfl
  | txpOne =>
    simp only [exec, execTxpOne, State.vary_phase]
    split
    · exact vary_appendPattern _
    · exact vary_transmitSlot
    · rfl
  | txpZero =>
    simp only [exec, execTxpZero, State.vary_phase]
    split
    · exact vary_appendPattern _
    · rfl
  | txpReset =>
    simp only [exec, execTxpReset, State.vary_phase]
    split
    · exact congrArg _ (vary_txWrite (s := { s with txBuf := some [s.params.resetPattern] }) _ (fun _ => rfl)
        fun _ => rfl)
    · rfl
  | rxslotBit1 ign => exact vary_slotBit _ _
  | rxslotBit0 ign => exact vary_slotBit _ _
  | rxslotBad7 rest => exact vary_slotBad _
  | rxslotBad6 rest => exact vary_slotBad _
  | rxslotBad5 rest => exact vary_slotBad _
  | rxslotBad4 rest => exact vary_slotBad _
  | rxrstNoPresence => exact vary_resetVerdict _
  | rxrstPresence e => exact vary_resetVerdict _

/-! ### The sequencer -/

/-- The steps without a row that use BAUD: the SetBaud calls of RESET. -/
def Micro.UsesBaud (m : Micro) : Prop := m = .saveBaud ∨ m = .restoreBaud ∨ m = .restoreAfterFailure

theorem vary_restoreFails (hv : v.baud = id) (u : State) : restoreFails (u.vary v) = (restoreFails u).vary v := by
  have hf : (u.vary v).freeBaud = u.freeBaud.vary v := by simp [State.freeBaud, State.vary, hv]
  rw [restoreFails, hf]
  exact vary_deliver ..

theorem vary_runMicro {m : Micro} (hv : m.UsesBaud → v.baud = id) :
    runMicro m (s.vary v) = mapNext (·.vary v) (runMicro m s) := by
  cases m with
  | wait => rfl
  | saveBaud =>
    obtain ⟨baud, pending, trace, results⟩ := v
    obtain rfl : baud = id := hv (.inl rfl)
    exact congrArg Host.Outcome.next (vary_setBaud (v := ⟨id, pending, trace, results⟩)
      (s := { s with savedBaud := some s.baud }) _ rfl (fun _ => rfl) fun _ => rfl)
  | receiveEcho => exact congrArg _ (vary_rxRead _ (fun _ _ => rfl) fun _ => rfl)
  | restoreBaud =>
    have hv := hv (.inr (.inl rfl))
    exact vary_need _ _ fun b => congrArg _ (vary_setBaud _ hv (fun _ => rfl) (vary_restoreFails hv))
  | restoreAfterFailure =>
    have hv := hv (.inr (.inr rfl))
    exact vary_need _ _ fun b => congrArg _ (vary_setBaud _ hv (vary_deliver v · _) (vary_restoreFails hv))
  | noEcho => exact vary_raise _
  | startFrame => rfl
  | endFrame =>
    refine vary_need _ _ fun tx => ?_
    cases h : tx.isEmpty
    · rfl
    · exact congrArg _ (vary_deliver ..)
  | sendFrame => exact vary_need _ _ fun tx => congrArg _ (vary_txWrite _ (fun _ => rfl) (vary_deliver v · _))
  | receiveFrame => exact vary_need _ _ fun tx => congrArg _ (vary_rxRead _ (fun _ _ => rfl) (vary_deliver v · _))
  | compareFrame =>
    refine vary_need _ _ fun tx => vary_need _ _ fun rx => ?_
    simp only [vary_raise, vary_deliver]
    split <;> rfl
  | startRead => rfl
  | nextByte =>
    refine vary_need _ _ fun n => vary_need _ _ fun k => vary_need _ _ fun o => ?_
    simp only [vary_deliver]
    split <;> rfl
  | receiveSlot => exact congrArg _ (vary_rxRead _ (fun _ _ => rfl) (vary_deliver v · _))
  | noSlotAnswer => exact vary_raise _

theorem vary_fetch (hq : s.phase = .idle → v.pending = id) : fetch (s.vary v) = fetch s := by
  rcases hp : s.phase with _ | n | n | n
  · have hpend : (s.vary v).pending = s.pending := by simp [State.vary, hq hp]
    simp only [fetch, State.vary_phase, hp, hpend]
  all_goals
    simp only [fetch, State.vary_phase, hp]
    cases n <;> rfl

theorem vary_afterFetch (hq : s.phase = .idle → v.pending = id) : (s.vary v).afterFetch = s.afterFetch.vary v := by
  by_cases h : s.phase = .idle
  · simp [State.afterFetch, State.vary, h, hq h]
  · rw [State.afterFetch_inFlight h, State.afterFetch_inFlight (s := s.vary v) h]

theorem fetchPattern_ne_micro {p : Config.Params} {sender : Op} {b : Byte} {m : Micro} :
    fetchPattern p sender b ≠ .micro m := by
  unfold fetchPattern
  split <;> simp

theorem fetchBuild_micro {m : Micro} (h : fetchBuild s = .micro m) : m = .endFrame := by
  unfold fetchBuild at h
  split at h
  · cases h
  · cases h
  · cases h
  split at h
  · cases h
    rfl
  split at h
  · split at h
    · exact absurd h fetchPattern_ne_micro
    · cases h
  · cases h

theorem fetchSlot_micro {m : Micro} (h : fetchSlot s = .micro m) : m = .noSlotAnswer := by
  unfold fetchSlot at h
  split at h
  · cases h
  · cases h
    rfl
  · split at h <;> cases h

/-- Only RESET takes a step that uses BAUD. -/
theorem fetch_usesBaud {m : Micro} (h : fetch s = .micro m) (hm : m.UsesBaud) : s.phase.op = some .reset := by
  rcases hp : s.phase with _ | n | n | n
  · rcases hq : s.pending with _ | ⟨w, ws⟩
    · obtain rfl : .wait = m := by simpa [fetch, hp, hq] using h
      simp [Micro.UsesBaud] at hm
    · simp [fetch, hp, hq] at h
  · rfl
  · cases n with
    | build =>
      obtain rfl : m = .endFrame := fetchBuild_micro (by simpa [fetch, hp] using h)
      simp [Micro.UsesBaud] at hm
    | _ =>
      simp only [fetch, hp, Fetched.micro.injEq] at h
      simp [Micro.UsesBaud, ← h] at hm
  · cases n with
    | transmit =>
      simp only [fetch, hp] at h
      split at h
      · exact absurd h fetchPattern_ne_micro
      · cases h
    | decode =>
      obtain rfl : m = .noSlotAnswer := fetchSlot_micro (by simpa [fetch, hp] using h)
      simp [Micro.UsesBaud] at hm
    | _ =>
      simp only [fetch, hp, Fetched.micro.injEq] at h
      simp [Micro.UsesBaud, ← h] at hm

/-- A step reads no history, BAUD only in RESET, and the coming commands only at IDLE. -/
theorem vary_step (hb : s.phase.op = some .reset → v.baud = id) (hq : s.phase = .idle → v.pending = id) :
    step (s.vary v) = mapNext (·.vary v) (step s) := by
  simp only [step, vary_fetch hq, vary_afterFetch hq]
  split
  · exact vary_exec _
  · next m hm => exact vary_runMicro fun hu => hb (fetch_usesBaud hm hu)
  · rfl

end Vary

/-- A step from any history is the step from the empty one, with that history put before what it adds. -/
theorem step_withHistory (s : State) (tr : List Event) (res : List Result) :
    step { s with trace := tr, results := res } =
      mapNext (·.vary ⟨id, id, tr, res⟩) (step { s with trace := [], results := [] }) := by
  rw [← vary_step (fun _ => rfl) (fun _ => rfl)]
  simp [State.vary]

/-- Settles O23: what the step adds is what it records when it starts from the empty history. -/
theorem nothingIsRemembered : Obligations.NothingIsRemembered := by
  intro s t h
  obtain ⟨u, hu, rfl⟩ := mapNext_eq_next ((step_withHistory s s.trace s.results).symm.trans h)
  refine ⟨u.trace, u.results, rfl, rfl, fun tr res => ?_⟩
  rw [step_withHistory, hu]
  rfl

/-- Outside RESET a step is the same at every rate. -/
theorem step_baud {s t : State} (h : step s = .next t) (hp : s.phase.op ≠ some .reset) (b : Nat) :
    step { s with baud := b } = .next { t with baud := b } := by
  have hv := vary_step (s := s) (v := ⟨fun _ => b, id, [], []⟩) (fun hr => absurd hr hp) (fun _ => rfl)
  rw [h] at hv
  exact hv

/-- Outside RESET no step writes BAUD: run at the rate it had, the step leaves that rate. -/
theorem baud_of_step {s t : State} (h : step s = .next t) (hp : s.phase.op ≠ some .reset) : t.baud = s.baud := by
  have hb := (step_baud h hp s.baud).symm.trans h
  simp only [Host.Outcome.next.injEq] at hb
  rw [← hb]

end Sys2Proof.Machine
end

section
/-! PROOFS. What no step and no row writes, which events a step records, and BAUD during a RESET. -/

namespace Sys2Proof.Machine

/-! ## The parameters -/

/-- No step writes a parameter. -/
theorem stepped_params {s t : State} (h : Stepped s t) : t.params = s.params := by
  cases h with
  | saveBaud => exact setBaud_rule (P := (·.params = s.params)) (by simp) (by simp)
  | transmitReset => exact txWrite_rule (P := (·.params = s.params)) (by simp) (by simp)
  | receiveEcho => exact rxRead_rule (P := (·.params = s.params)) (by simp) (by simp)
  | restore => exact setBaud_rule (P := (·.params = s.params)) (by simp) (by simp)
  | restoreFailed => exact setBaud_rule (P := (·.params = s.params)) (by simp) (by simp)
  | sendFrame => exact txWrite_rule (P := (·.params = s.params)) (by simp) (by simp)
  | receiveFrame => exact rxRead_rule (P := (·.params = s.params)) (by simp) (by simp)
  | transmitSlot => exact txWrite_rule (P := (·.params = s.params)) (by simp) (by simp)
  | receiveSlot => exact rxRead_rule (P := (·.params = s.params)) (by simp) (by simp)
  | endFrame => split <;> rfl
  | nextByte => split <;> rfl
  | _ => rfl

section Rows
variable {s t : State}

theorem raise_params {kind : ErrorKind} (h : raise kind s = .next t) : t.params = s.params := by
  obtain ⟨_, _, -, -, rfl⟩ := raise_next h
  rfl

theorem appendPattern_params {b : Byte} (h : appendPattern b s = .next t) : t.params = s.params := by
  obtain ⟨_, -, _, _, -, -, -, rfl⟩ := appendPattern_next h
  rfl

theorem transmitSlot_params (h : transmitSlot s = .next t) : t.params = s.params := by
  unfold transmitSlot at h
  split at h
  · split at h
    · cases h
      exact txWrite_rule (P := (·.params = s.params)) (by simp) (by simp)
    · cases h
  · cases h

theorem slotBit_params {e : Byte} {v : ProtocolBit} (h : slotBit e v s = .next t) : t.params = s.params := by
  obtain ⟨_, _, _, _, -, -, -, -, rfl⟩ := acceptBit_next (slotBit_next h).2
  rfl

theorem slotBad_params {e : Byte} (h : slotBad e s = .next t) : t.params = s.params :=
  raise_params (slotBad_next h).2

theorem resetVerdict_params {e : Byte} (h : resetVerdict e s = .next t) : t.params = s.params := by
  obtain ⟨-, -, ⟨-, h⟩ | ⟨-, rfl⟩⟩ := resetVerdict_next h
  · exact raise_params h
  · rfl

/-- No row writes a parameter. -/
theorem exec_params {i : Instr} (h : exec i s = .next t) : t.params = s.params := by
  cases i with
  | reset | write | read =>
    simp only [exec, execReset, execWrite, execRead] at h
    obtain ⟨-, rfl⟩ := accept_next h
    rfl
  | cmdReserved => cases h
  | encodeBit | decodeSlot | serialize =>
    cases h
    rfl
  | txpOne =>
    simp only [exec, execTxpOne] at h
    split at h
    · exact appendPattern_params h
    · exact transmitSlot_params h
    · cases h
  | txpZero =>
    simp only [exec, execTxpZero] at h
    split at h
    · exact appendPattern_params h
    · cases h
  | txpReset =>
    simp only [exec, execTxpReset] at h
    split at h
    · cases h
      exact txWrite_rule (P := (·.params = s.params)) (by simp) (by simp)
    · cases h
  | rxslotBit1 | rxslotBit0 => exact slotBit_params h
  | rxslotBad7 | rxslotBad6 | rxslotBad5 | rxslotBad4 => exact slotBad_params h
  | rxrstNoPresence | rxrstPresence => exact resetVerdict_params h

/-- No row writes BAUD: a row does not read it either, so a row run at the rate it had leaves that rate. -/
theorem exec_baud {i : Instr} (h : exec i s = .next t) : t.baud = s.baud := by
  have hv : exec i s = mapNext (·.vary ⟨fun _ => s.baud, id, [], []⟩) (exec i s) :=
    vary_exec (v := ⟨fun _ => s.baud, id, [], []⟩) (s := s) i
  rw [h] at hv
  have hb := congrArg State.baud (Host.Outcome.next.inj hv)
  exact hb

end Rows

/-- Settles O30: by the cases of a step and of a row. -/
theorem parametersAreNeverWritten : Obligations.ParametersAreNeverWritten :=
  ⟨fun _ _ h => stepped_params (stepped_of_step h), fun _ _ _ h => ⟨exec_params h, exec_baud h⟩⟩

/-! ## The events -/

/-- The call that an event records, whether it returned or failed. -/
def Event.call : Event → Primitive
  | .setBaud _ r => .setBaud r
  | .txWrite _ buf => .txWrite buf
  | .rxRead _ n _ => .rxRead n
  | .failed _ c => c

/-- A step from `s` to `t` records the event `e`: in flight, addressed to HANDLE, a SetBaud in RESET alone, and one that
has returned leaves its rate in BAUD. -/
structure Records (s t : State) (e : Event) : Prop where
  trace : t.trace = s.trace ++ [e]
  handle : e.handle = s.params.handle
  inFlight : s.phase ≠ .idle
  setBaud : ∀ r, e.call = .setBaud r → s.phase.op = some .reset
  returned : ∀ h r, e = .setBaud h r → t.baud = r

section Events
variable {s u : State} {bad : State → State}

/-! In the lemmas of this section the side conditions say that what is done around the call, before it (`u`) and after it
(`ok`, `bad`), records nothing. -/

theorem records_setBaud {r : Nat} {ok : State → State} {n : ResetStep} (hp : s.phase = .reset n)
    (hu : u.params = s.params ∧ u.trace = s.trace := by exact ⟨rfl, rfl⟩)
    (hok : ∀ w, (ok w).trace = w.trace ∧ (ok w).baud = w.baud := by exact fun _ => ⟨rfl, rfl⟩)
    (hbad : ∀ w, (bad w).trace = w.trace := by exact fun _ => rfl) : ∃ e, Records s (setBaud r ok bad u) e := by
  have hidle : s.phase ≠ .idle := by simp [hp]
  have hop : s.phase.op = some .reset := by simp [hp, Phase.op]
  refine setBaud_rule (P := fun t => ∃ e, Records s t e)
    ⟨.setBaud s.params.handle r, ?_, rfl, hidle, fun _ _ => hop, ?_⟩
    ⟨.failed s.params.handle (.setBaud r), ?_, rfl, hidle, fun _ _ => hop, ?_⟩
  all_goals simp +contextual [hok, hbad, hu]

theorem records_txWrite {buf : List Byte} {ok : State → State} (hp : s.phase ≠ .idle)
    (hu : u.params = s.params ∧ u.trace = s.trace := by exact ⟨rfl, rfl⟩)
    (hok : ∀ w, (ok w).trace = w.trace := by exact fun _ => rfl)
    (hbad : ∀ w, (bad w).trace = w.trace := by exact fun _ => rfl) : ∃ e, Records s (txWrite buf ok bad u) e := by
  refine txWrite_rule (P := fun t => ∃ e, Records s t e)
    ⟨.txWrite s.params.handle buf, ?_, rfl, hp, ?_, ?_⟩
    ⟨.failed s.params.handle (.txWrite buf), ?_, rfl, hp, ?_, ?_⟩
  all_goals simp [Event.call, hok, hbad, hu]

theorem records_rxRead {n : Nat} {ok : List Byte → State → State} (hp : s.phase ≠ .idle)
    (hu : u.params = s.params ∧ u.trace = s.trace := by exact ⟨rfl, rfl⟩)
    (hok : ∀ rx w, (ok rx w).trace = w.trace := by exact fun _ _ => rfl)
    (hbad : ∀ w, (bad w).trace = w.trace := by exact fun _ => rfl) : ∃ e, Records s (rxRead n ok bad u) e := by
  refine rxRead_rule (P := fun t => ∃ e, Records s t e)
    (fun rx _ => ⟨.rxRead s.params.handle n rx, ?_, rfl, hp, ?_, ?_⟩)
    ⟨.failed s.params.handle (.rxRead n), ?_, rfl, hp, ?_, ?_⟩
  all_goals simp [Event.call, hok, hbad, hu]

end Events

/-- A step records nothing or one event. -/
theorem stepped_records {s t : State} (h : Stepped s t) : t.trace = s.trace ∨ ∃ e, Records s t e := by
  cases h with
  | saveBaud h => exact .inr (records_setBaud h)
  | transmitReset h => exact .inr (records_txWrite (by simp [h]))
  | receiveEcho h => exact .inr (records_rxRead (by simp [h]))
  | restore h => exact .inr (records_setBaud h)
  | restoreFailed h => exact .inr (records_setBaud h)
  | sendFrame h => exact .inr (records_txWrite (by simp [h]))
  | receiveFrame h => exact .inr (records_rxRead (by simp [h]))
  | transmitSlot h => exact .inr (records_txWrite (by simp [h]))
  | receiveSlot h => exact .inr (records_rxRead (by simp [h]))
  | endFrame => exact .inl (by split <;> rfl)
  | nextByte => exact .inl (by split <;> rfl)
  | _ => exact .inl rfl

/-- What is known of the event that a step has added to the trace. -/
theorem records_of_trace {s t : State} {e : Event} (h : step s = .next t) (he : t.trace = s.trace ++ [e]) :
    Records s t e := by
  rcases stepped_records (stepped_of_step h) with hn | ⟨e', hr⟩
  · simp [hn] at he
  · obtain rfl : e' = e := by simpa [he] using hr.trace.symm
    exact hr

/-- Settles O29: outside RESET a step is the same at every rate, so it reads BAUD no more than it writes it. -/
theorem onlyResetUsesBaud : Obligations.OnlyResetUsesBaud := by
  refine ⟨fun p => ⟨rfl, rfl⟩, fun s t h => ⟨fun hne => ?_, fun r r' he => ?_, fun r r' he => ?_, step_baud h⟩⟩
  · by_contra hp
    exact hne (baud_of_step h hp)
  · have hr := records_of_trace h he
    exact ⟨hr.setBaud _ rfl, hr.returned _ _ rfl⟩
  · exact (records_of_trace h he).setBaud _ rfl

/-! ## BAUD during a RESET -/

/-- A RESET accepted in `s` has issued its first SetBaud and not yet ended: until the restoring SetBaud has returned, BAUD
holds RESET_BAUD and SAVED_BAUD the rate at acceptance, and afterwards BAUD is that rate. -/
def ResetUnderWay (s v : State) : Prop :=
  v.params = s.params ∧ v.results = s.results ∧
  ((v.phase = .reset .decide ∧ v.baud = s.baud) ∨
   ((v.phase = .reset .transmit ∨ v.phase = .reset .receive ∨ v.phase = .reset .restore ∨
      v.phase = .reset .restoreFailed) ∧ v.baud = s.params.resetBaud ∧ v.savedBaud = some s.baud))

/-- The results that are recorded stay. -/
theorem results_length_le_of_runs {k : Nat} {s t : State} (h : Runs k s t) : s.results.length ≤ t.results.length := by
  induction k generalizing s with
  | zero => simp [runs_zero.mp h]
  | succ k ih =>
    obtain ⟨u, hu, hr⟩ := runs_succ.mp h
    obtain ⟨_, rs, -, hres, -⟩ := nothingIsRemembered s u hu
    exact (by simp [hres] : s.results.length ≤ u.results.length).trans (ih hr)

/-- Acceptance and step 1 bring a RESET under way. -/
theorem resetUnderWay_of_accepted {s u v : State} (hu : exec .reset s = .next u) (h : step u = .next v) :
    ResetUnderWay s v := by
  simp only [exec, execReset] at hu
  obtain ⟨-, rfl⟩ := accept_next hu
  rw [step_reset_save rfl] at h
  cases h
  refine setBaud_rule (P := ResetUnderWay s) ?_ ?_
  all_goals simp [ResetUnderWay]

/-- A RESET under way stays so, or delivers its result. -/
theorem resetUnderWay_step {s u v : State} (hu : ResetUnderWay s u) (h : step u = .next v) :
    ResetUnderWay s v ∨ ∃ r, v.results = u.results ++ [r] := by
  obtain ⟨hpar, hres, ⟨hp, hbaud⟩ | ⟨hp, hbaud, hsaved⟩⟩ := hu
  · cases stepped_of_step h with
    | presence => exact .inr ⟨_, rfl⟩
    | noPresence => exact .inr ⟨_, rfl⟩
    | _ => simp_all -- no other step is taken at step 5 of RESET
  · rcases hp with hp | hp | hp | hp
    · rw [step_reset_transmit hp] at h
      cases h
      refine .inl (txWrite_rule (P := ResetUnderWay s) ?_ ?_)
      all_goals simp [ResetUnderWay, *]
    · rw [step_reset_receive hp] at h
      cases h
      refine .inl (rxRead_rule (P := ResetUnderWay s) (fun rx _ => ?_) ?_)
      all_goals simp [ResetUnderWay, *]
    · rw [step_reset_restore hp hsaved] at h
      cases h
      refine setBaud_rule (P := fun v => ResetUnderWay s v ∨ ∃ r, v.results = u.results ++ [r]) (.inl ?_) (.inr ?_)
      all_goals simp [ResetUnderWay, *]
    · rw [step_reset_restoreFailed hp hsaved] at h
      cases h
      refine setBaud_rule (P := fun v => ResetUnderWay s v ∨ ∃ r, v.results = u.results ++ [r])
        (.inr ?_) (.inr ?_)
      all_goals simp

/-- A RESET under way is so as long as no result has come. -/
theorem resetUnderWay_runs {k : Nat} {s u v : State} (hu : ResetUnderWay s u) (h : Runs k u v)
    (hres : v.results = s.results) : ResetUnderWay s v := by
  induction k generalizing u with
  | zero => exact runs_zero.mp h ▸ hu
  | succ k ih =>
    obtain ⟨w, hw, hr⟩ := runs_succ.mp h
    rcases resetUnderWay_step hu hw with hu' | ⟨r, hdone⟩
    · exact ih hu' hr
    · have hle := results_length_le_of_runs hr
      rw [hres, hdone, hu.2.1, List.length_append] at hle
      simp at hle

/-- Settles O60: a RESET that has delivered nothing is under way. -/
theorem baudIsResetBaudUntilRestored : Obligations.BaudIsResetBaudUntilRestored := by
  intro s u v k _ hu hk hrun hres
  obtain ⟨k, rfl⟩ := Nat.exists_eq_add_of_le' hk
  obtain ⟨w, hw, hr⟩ := runs_succ.mp hrun
  obtain ⟨-, -, ⟨hp, hbaud⟩ | ⟨hp, hbaud, hsaved⟩⟩ :=
    resetUnderWay_runs (resetUnderWay_of_accepted hu hw) hr hres
  · exact ⟨fun hne => absurd hp hne, fun _ => hbaud⟩
  · refine ⟨fun _ => ⟨hbaud, hsaved⟩, fun hd => ?_⟩
    simp [hd] at hp

end Sys2Proof.Machine
end

section
/-! PROOFS. The Transport boundary: how many events a step records, what an RxRead asks for and returns, and what an echo
on a wired-AND bus shows. -/

namespace Sys2Proof.Machine

/-- Settles O26: a step records nothing or one event, and only in flight does it record one. -/
theorem onePrimitiveAtATime : Obligations.OnePrimitiveAtATime := by
  intro s t h
  rcases stepped_records (stepped_of_step h) with hn | ⟨e, hr⟩
  · exact ⟨.inl hn, fun _ => hn⟩
  · exact ⟨.inr ⟨e, hr.trace, hr.handle⟩, fun hidle => absurd hidle hr.inFlight⟩

/-! ## What an RxRead asks for and returns -/

/-- In `s` the operation in flight is at the step that reads, and asks for `n` bytes (41 R110, 42 R121, R125). -/
def AsksFor (s : State) (n : Nat) : Prop :=
  (s.phase = .reset .receive ∧ n = 1) ∨ (s.phase = .read .receive ∧ n = 1) ∨
  (s.phase = .write .receive ∧ ∃ tx, s.txBuf = some tx ∧ n = tx.length)

/-- A call of RxRead that has returned is recorded with the number asked for and at most that many bytes. -/
theorem rxRead_returned {m n h : Nat} {a : List Byte} {ok : List Byte → State → State} {bad : State → State} {s : State}
    (he : (rxRead m ok bad s).trace = s.trace ++ [.rxRead h n a])
    (hok : ∀ rx w, (ok rx w).trace = w.trace := by exact fun _ _ => rfl)
    (hbad : ∀ w, (bad w).trace = w.trace := by exact fun _ => rfl) : m = n ∧ a.length ≤ m := by
  refine rxRead_rule (P := fun t => t.trace = s.trace ++ [.rxRead h n a] → m = n ∧ a.length ≤ m)
    (fun rx hlen hrx => ?_) (fun hfail => ?_) he
  · obtain ⟨-, rfl, rfl⟩ : s.params.handle = h ∧ m = n ∧ rx = a := by simpa [hok] using hrx
    exact ⟨rfl, hlen⟩
  · simp [hbad] at hfail

/-- A step that records an RxRead is one that asks for bytes. -/
theorem stepped_rxRead {s t : State} {h n : Nat} {a : List Byte} (hs : Stepped s t)
    (he : t.trace = s.trace ++ [.rxRead h n a]) : a.length ≤ n ∧ AsksFor s n := by
  cases hs with
  | receiveEcho hp =>
    obtain ⟨rfl, hlen⟩ := rxRead_returned he
    exact ⟨hlen, .inl ⟨hp, rfl⟩⟩
  | receiveSlot hp =>
    obtain ⟨rfl, hlen⟩ := rxRead_returned he
    exact ⟨hlen, .inr (.inl ⟨hp, rfl⟩)⟩
  | receiveFrame hp htx =>
    obtain ⟨rfl, hlen⟩ := rxRead_returned he
    exact ⟨hlen, .inr (.inr ⟨hp, _, htx, rfl⟩)⟩
  | saveBaud | restore | restoreFailed =>
    exact absurd he (setBaud_rule (P := (·.trace ≠ s.trace ++ [.rxRead h n a])) (by simp) (by simp))
  | transmitReset | sendFrame | transmitSlot =>
    exact absurd he (txWrite_rule (P := (·.trace ≠ s.trace ++ [.rxRead h n a])) (by simp) (by simp))
  | endFrame | nextByte => split at he <;> simp at he
  | _ => simp at he -- every other step records nothing

/-- Settles O27: an RxRead is recorded only by the three steps that read. -/
theorem rxReadReturnsAtMostWhatIsAsked : Obligations.RxReadReturnsAtMostWhatIsAsked :=
  fun _ _ _ _ _ h he => stepped_rxRead (stepped_of_step h) he

/-! ## What an echo shows -/

/-- On a wired-AND bus an echo that differs from the byte sent has a released bit-time low: otherwise no bit differs. -/
theorem exists_released_low_of_wiredAnd {p e : Byte} (hw : WiredAnd p e) (hne : e ≠ p) :
    ∃ i : Fin 8, p.getLsbD i.val = true ∧ e.getLsbD i.val = false := by
  by_contra! hall
  refine hne (BitVec.eq_of_getLsbD_eq fun i hi => ?_)
  have hand : (e.getLsbD i && p.getLsbD i) = e.getLsbD i := by rw [← BitVec.getLsbD_and, hw]
  have hreleased := hall ⟨i, hi⟩
  cases hp : p.getLsbD i with
  | false => simpa [hp] using hand.symm
  | true => simpa [hp] using hreleased

/-- A RESET row that delivers Ok has had an echo other than RESET_PATTERN. -/
theorem ne_resetPattern_of_ok {e : Byte} {s t : State} (h : resetVerdict e s = .next t)
    (hok : t.results = s.results ++ [.ok]) : e ≠ s.params.resetPattern := by
  obtain ⟨-, -, ⟨-, hraise⟩ | ⟨hne, -⟩⟩ := resetVerdict_next h
  · obtain ⟨_, _, -, -, rfl⟩ := raise_next hraise
    simp at hok
  · exact hne

/-- Settles O59: the echo of a RESET that succeeds differs from RESET_PATTERN, so a released bit-time was pulled low. -/
theorem presenceIsALinePulledLow : Obligations.PresenceIsALinePulledLow :=
  fun _ _ _ _ _ hw h hok => exists_released_low_of_wiredAnd hw (ne_resetPattern_of_ok h hok)

end Sys2Proof.Machine
end

section
/-! PROOFS. The encoding: what the decoder reads from each row's code, the codes of the bytes received, and the words of
the table (30 R70 to R83). -/

namespace Sys2Proof

/-! ## The six RXSLOT rows: the decoder reads each row's byte as that row -/

@[simp] theorem decodeRxslot_bit1Byte (ign : BitVec 3) : decodeRxslot (bit1Byte ign) = .rxslotBit1 ign := by
  decide +revert

@[simp] theorem decodeRxslot_bit0Byte (ign : BitVec 3) : decodeRxslot (bit0Byte ign) = .rxslotBit0 ign := by
  decide +revert

@[simp] theorem decodeRxslot_bad7Byte (rest : BitVec 7) : decodeRxslot (bad7Byte rest) = .rxslotBad7 rest := by
  decide +revert

@[simp] theorem decodeRxslot_bad6Byte (rest : BitVec 6) : decodeRxslot (bad6Byte rest) = .rxslotBad6 rest := by
  decide +revert

@[simp] theorem decodeRxslot_bad5Byte (rest : BitVec 5) : decodeRxslot (bad5Byte rest) = .rxslotBad5 rest := by
  decide +revert

@[simp] theorem decodeRxslot_bad4Byte (rest : BitVec 4) : decodeRxslot (bad4Byte rest) = .rxslotBad4 rest := by
  decide +revert

/-! ## Decoding and encoding -/

/-- The decoder reads an instruction's code as that instruction: TXP_ZERO only because its pattern is not TXP_ONE's (00
R9), RXRST_PRESENCE only for a byte other than RESET_PATTERN. -/
theorem decode_of_encode {p : Config.Params} {i : Instr} {c : Code} (hz : p.zeroPattern ≠ Config.onePattern)
    (hwf : wellFormed p i = true) (hc : encode p i = some c) : decode p c = .ok i := by
  cases i with
  | reset | write | read | cmdReserved =>
    cases hc
    rfl
  | encodeBit | decodeSlot | serialize => cases hc
  | txpOne | txpZero | txpReset =>
    cases hc
    simp [decode, decodeTxpat, hz]
  | rxslotBit1 | rxslotBit0 | rxslotBad7 | rxslotBad6 | rxslotBad5 | rxslotBad4 =>
    cases hc
    simp [decode]
  | rxrstNoPresence =>
    cases hc
    simp [decode, decodeRxrst]
  | rxrstPresence e =>
    cases hc
    have he : e ≠ p.resetPattern := by simpa [wellFormed] using hwf
    simp [decode, decodeRxrst, he]

/-- No bit pattern selects an internal function, and something does select every other row (30 R80). -/
theorem encode_eq_none_iff {p : Config.Params} {i : Instr} :
    encode p i = none ↔ (∃ b, i = .encodeBit b) ∨ (∃ e, i = .decodeSlot e) ∨ (∃ b, i = .serialize b) := by
  cases i <;> simp [encode]

/-- The row of a byte received in a slot encodes to that byte. -/
theorem encode_decodeRxslot (p : Config.Params) (e : Byte) : encode p (decodeRxslot e) = some (.rxslot e) := by
  unfold decodeRxslot
  rcases Machine.slotRow_byte e with ⟨ign, -, hrow, rfl⟩ | ⟨ign, -, hrow, rfl⟩ |
    ⟨hbad, ⟨r, hrow, rfl⟩ | ⟨r, hrow, rfl⟩ | ⟨r, hrow, rfl⟩ | ⟨r, hrow, rfl⟩⟩
  · rw [hrow]
    rfl
  · rw [hrow]
    rfl
  all_goals
    rw [hbad, hrow]
    rfl

/-- The row of an echo encodes to that byte. -/
theorem encode_decodeRxrst (p : Config.Params) (e : Byte) : encode p (decodeRxrst p e) = some (.rxrst e) := by
  unfold decodeRxrst
  split
  · next he => rw [he, encode]
  · rfl

/-- The row of an echo is well formed: the default row is chosen for the other bytes alone. -/
theorem wellFormed_decodeRxrst (p : Config.Params) (e : Byte) : wellFormed p (decodeRxrst p e) = true := by
  unfold decodeRxrst
  split
  · rfl
  · next he => simpa [wellFormed] using he

/-- Settles O3: row by row, the code decodes to its row, or the row is a function and has no code. -/
theorem decodeUndoesEncode : Obligations.DecodeUndoesEncode :=
  fun _ _ hz hwf => ⟨fun _ => decode_of_encode hz hwf, encode_eq_none_iff⟩

/-- Settles O4: the rows are `decodeRxslot e` and `decodeRxrst p e`. -/
theorem receivedBytesAreOneRowEach : Obligations.ReceivedBytesAreOneRowEach :=
  fun p e => ⟨⟨_, rfl, encode_decodeRxslot p e⟩, ⟨_, rfl, encode_decodeRxrst p e, wellFormed_decodeRxrst p e⟩⟩

/-- Settles O1: the decoder is run on each word. -/
theorem tableWordsDecodeToTheirRows : Obligations.TableWordsDecodeToTheirRows := by
  unfold Obligations.TableWordsDecodeToTheirRows
  decide

/-- Settles O2: the selector alone is compared. -/
theorem selectorChoosesTheCommand : Obligations.SelectorChoosesTheCommand :=
  fun _ _ => ⟨rfl, rfl, rfl, rfl⟩

/-- Settles O5: the layout of 30 R73 written with shifts is the row's byte, which the decoder reads as the row. -/
theorem slotFieldsStandInPlace : Obligations.SlotFieldsStandInPlace := by
  have h1 : ∀ ign : BitVec 3, 0xF1 ||| (ign.setWidth 8 <<< 1) = bit1Byte ign := by decide
  have h0 : ∀ ign : BitVec 3, 0xF0 ||| (ign.setWidth 8 <<< 1) = bit0Byte ign := by decide
  have h7 : ∀ rest : BitVec 7, 0x00 ||| rest.setWidth 8 = bad7Byte rest := by decide
  have h6 : ∀ rest : BitVec 6, 0x80 ||| rest.setWidth 8 = bad6Byte rest := by decide
  have h5 : ∀ rest : BitVec 5, 0xC0 ||| rest.setWidth 8 = bad5Byte rest := by decide
  have h4 : ∀ rest : BitVec 4, 0xE0 ||| rest.setWidth 8 = bad4Byte rest := by decide
  intro p
  simp only [h1, h0, h7, h6, h5, h4, decode, decodeRxslot_bit1Byte, decodeRxslot_bit0Byte, decodeRxslot_bad7Byte,
    decodeRxslot_bad6Byte, decodeRxslot_bad5Byte, decodeRxslot_bad4Byte, implies_true, and_self]

/-- Settles O6: by who sends the byte, and by the patterns that sender has. -/
theorem onlyThePatternsAreSent : Obligations.OnlyThePatternsAreSent := by
  intro p sender b i h
  cases sender <;> simp only [decode, decodeTxpat] at h
  case reset =>
    split at h <;> cases h
    next hb => exact .inr (.inr ⟨rfl, hb, rfl⟩)
  case write =>
    split at h
    · next hb =>
      cases h
      exact .inl ⟨rfl, hb, .inl rfl⟩
    split at h <;> cases h
    next hb => exact .inr (.inl ⟨rfl, hb, rfl⟩)
  case read =>
    split at h <;> cases h
    next hb => exact .inl ⟨rfl, hb, .inr rfl⟩

end Sys2Proof
end

section
/-! PROOFS. The patterns of a frame and the bits of a byte, and the functions that answer with them (30 R75, R79). -/

namespace Sys2Proof.Machine

/-! ## The frame, pattern by pattern -/

theorem encodeBit_eq_or (p : Config.Params) (v : ProtocolBit) :
    encodeBit p v = Config.onePattern ∨ encodeBit p v = p.zeroPattern := by
  cases v
  · exact .inr rfl
  · exact .inl rfl

theorem eq_pattern_of_mem_frame {p : Config.Params} {d : List Byte} {w : Byte} (hw : w ∈ frame p d) :
    w = Config.onePattern ∨ w = p.zeroPattern := by
  obtain ⟨b, -, hw⟩ := List.mem_flatMap.mp hw
  obtain ⟨i, -, rfl⟩ := List.mem_map.mp hw
  exact encodeBit_eq_or p _

theorem frame_cons (p : Config.Params) (b : Byte) (d : List Byte) : frame p (b :: d) = serialize p b ++ frame p d :=
  rfl

/-- `F[8 × k + i]` is the pattern of bit `i` of byte `k`: the bytes before byte `k` take eight places each. -/
theorem frame_getElem? (p : Config.Params) {d : List Byte} {k : Nat} {b : Byte} (i : Fin 8) (hb : d[k]? = some b) :
    (frame p d)[8 * k + i.val]? = some (encodeBit p (bitOf b i)) := by
  induction d generalizing k with
  | nil => simp at hb
  | cons c d ih =>
    have hlen : (serialize p c).length = 8 := rfl
    rw [frame_cons]
    cases k with
    | zero =>
      obtain rfl : c = b := by simpa using hb
      rw [List.getElem?_append_left (by omega), Nat.mul_zero, Nat.zero_add, serialize_getElem?]
    | succ k =>
      have hplace : 8 * (k + 1) + i.val - 8 = 8 * k + i.val := by omega
      rw [List.getElem?_append_right (by omega), hlen, hplace]
      exact ih (by simpa using hb)

/-- Settles O11: the length, the place and the range of the patterns, each by a lemma. -/
theorem frameHoldsEveryBitInOrder : Obligations.FrameHoldsEveryBitInOrder :=
  fun p d => ⟨frame_length p d, fun _ i _ => frame_getElem? p i, fun _ => eq_pattern_of_mem_frame⟩

/-! ## The bits of a byte under assembly -/

theorem placeBit_getLsbD (a : Byte) (v : ProtocolBit) (i j : Fin 8) :
    (placeBit a v i).getLsbD j.val = if j = i then (a.getLsbD j.val || v) else a.getLsbD j.val := by
  have hplace : j.val < i.val ∨ j = i ∨ i.val < j.val := by omega
  rcases hplace with hlt | rfl | hgt
  · simp [placeBit, hlt, hlt.ne, Fin.ext_iff]
  · simp [placeBit]
  · have hbeyond : j.val - i.val ≠ 0 := by omega
    simp [placeBit, hgt.ne', Fin.ext_iff, hbeyond]

/-- Or-ing bits of `b` into `a` one after the other sets those that are 1 in `b`. -/
theorem foldl_placeBit_getLsbD (a b : Byte) (is : List (Fin 8)) (j : Fin 8) :
    (is.foldl (fun a i => placeBit a (bitOf b i) i) a).getLsbD j.val =
      (a.getLsbD j.val || (decide (j ∈ is) && b.getLsbD j.val)) := by
  induction is generalizing a with
  | nil => simp
  | cons i is ih =>
    rw [List.foldl_cons, ih, placeBit_getLsbD]
    by_cases h : j = i
    · subst h
      rw [if_pos rfl, bitOf]
      cases b.getLsbD j.val <;> simp
    · simp [h]

theorem mem_bitPositions (j : Fin 8) : j ∈ bitPositions := by
  decide +revert

/-- Settles O13: the eight positions are all there are. -/
theorem placedBitsMakeTheByte : Obligations.PlacedBitsMakeTheByte := by
  refine ⟨placeBit_getLsbD, fun b => BitVec.eq_of_getLsbD_eq fun j hj => ?_⟩
  simpa [mem_bitPositions] using foldl_placeBit_getLsbD 0 b bitPositions ⟨j, hj⟩

/-- Settles O10: each row is that one update of `callResult`. -/
theorem functionsHandTheirValueOver : Obligations.FunctionsHandTheirValueOver :=
  fun _ _ _ _ => ⟨rfl, rfl, rfl⟩

end Sys2Proof.Machine
end

section
/-! PROOFS. The rows of the formats TXPAT, RXSLOT and RXRST: the step that runs each, what each answers and leaves, and
what is handed to TxWrite (30 R72 to R74). -/

namespace Sys2Proof.Machine

section Rows
variable {s t : State}

/-! ## The step that runs a row -/

theorem step_of_fetch_instr {i : Instr} (hp : s.phase ≠ .idle) (hf : fetch s = .instr i) : step s = exec i s := by
  simp only [step, hf, State.afterFetch_inFlight hp]

theorem fetchPattern_of_decode {p : Config.Params} {sender : Op} {b : Byte} {i : Instr}
    (h : decode p (.txpat sender b) = .ok i) : fetchPattern p sender b = .instr i := by
  rw [decode] at h
  rw [fetchPattern, h]

/-! ## What a row answers at its step -/

/-- The pattern that SERIALIZE gave for the bit position joins the frame. -/
theorem appendPattern_eq {tx bs : List Byte} {k : Nat} {i : Fin 8} {b : Byte} (ht : s.txBuf = some tx)
    (hk : s.byteIdx = some k) (hi : s.bitIdx = some i) (hc : s.callResult = some (.patterns bs))
    (hb : bs[i.val]? = some b) :
    appendPattern b s = .next { s with
      txBuf := some (tx ++ [b]), bitIdx := some (i + 1), byteIdx := some (if i = 7 then k + 1 else k),
      callResult := if i = 7 then none else s.callResult } := by
  rw [← nextFrameBit_eq hk]
  simp only [appendPattern, ht, hk, hi, hc, hb, need_some, if_true]

/-- The verdict of step 5 of RESET on the first byte of RXBUF. -/
theorem resetVerdict_eq {e : Byte} {rest : List Byte} (hp : s.phase = .reset .decide)
    (hr : s.rxBuf = some (e :: rest)) :
    resetVerdict e s = if e = s.params.resetPattern then raise .noPresence s else .next (deliver .ok s) := by
  simp [resetVerdict, hp, hr, noPresence]

/-! ## What a row leaves unchanged -/

/-- `t` is `s` but for what a pattern row writes: TXBUF, the position, the value taken from the function, the
environment's answers and the trace. -/
def PatternFrame (s t : State) : Prop :=
  t = { s with
    phase := t.phase, txBuf := t.txBuf, byteIdx := t.byteIdx, bitIdx := t.bitIdx, callResult := t.callResult,
    env := t.env, draws := t.draws, trace := t.trace }

/-- A call that is answered and recorded changes the environment's answers and the trace. -/
theorem popAnswer_record_eq (s : State) (e : Event) :
    ∃ env draws, s.popAnswer.record e = { s with env := env, draws := draws, trace := s.trace ++ [e] } := by
  rcases h : s.env with _ | ⟨a, l⟩
  · exact ⟨s.env, s.draws + 1, by simp [State.record, State.popAnswer, h]⟩
  · exact ⟨l, s.draws, by simp [State.record, State.popAnswer, h]⟩

theorem appendPattern_frame {b : Byte} (h : appendPattern b s = .next t) : PatternFrame s t := by
  obtain ⟨_, -, _, _, -, -, -, rfl⟩ := appendPattern_next h
  rfl

/-- A read slot is opened, or its Transport has failed and the READ ends. -/
theorem transmitSlot_frame (h : transmitSlot s = .next t) :
    PatternFrame s t ∨ t = deliver .transportFault { s with env := t.env, draws := t.draws, trace := t.trace } := by
  unfold transmitSlot at h
  split at h
  · split at h
    · cases h
      refine txWrite_rule (P := fun t => PatternFrame s t ∨
        t = deliver .transportFault { s with env := t.env, draws := t.draws, trace := t.trace }) (.inl ?_) (.inr ?_)
      all_goals
        obtain ⟨env, draws, hcall⟩ := popAnswer_record_eq _ _
        rw [hcall]
        rfl
    · cases h
  · cases h

/-- RESET has sent its pattern, or its Transport has failed and step 4 is still to come. -/
theorem execTxpReset_frame (h : execTxpReset s = .next t) : PatternFrame s t := by
  unfold execTxpReset at h
  split at h
  · cases h
    refine txWrite_rule (P := PatternFrame s) ?_ ?_
    all_goals
      obtain ⟨env, draws, hcall⟩ := popAnswer_record_eq _ _
      rw [hcall]
      rfl
  · cases h

end Rows

/-! ## The statements about rows -/

/-- Settles O16: at each of the five positions the row that is fetched is the one the byte decodes to. -/
theorem stepRunsTheRowInFlight : Obligations.StepRunsTheRowInFlight := by
  refine fun s => ⟨fun hp => ?_, fun e rest i hp hr hi => ?_, fun d k i b bs w j hp hd hk hi hb hc hw hj => ?_,
    fun w j hp hc hj => ?_, fun e rest j hp hr hc hj => ?_⟩
  all_goals refine step_of_fetch_instr (by simp [hp]) ?_
  · have hdecode : decode s.params (.txpat .reset s.params.resetPattern) = .ok .txpReset := by
      simp [decode, decodeTxpat]
    simpa only [fetch, hp] using fetchPattern_of_decode hdecode
  · cases hi
    simp only [fetch, hp, fetchEcho, hr]
  · simpa only [fetch, hp, fetchBuild, hd, hk, hi, hb, hc, hw] using fetchPattern_of_decode hj
  · simpa only [fetch, hp, hc] using fetchPattern_of_decode hj
  · cases hj
    simp only [fetch, hp, fetchSlot, hr, hc, decodeRxslot]

/-- Settles O20: the row is that refusal. -/
theorem reservedSelectorIsRefused : Obligations.ReservedSelectorIsRefused :=
  fun _ => rfl

/-- Settles O39: while WRITE builds its frame the two rows append their patterns. -/
theorem patternsJoinTheFrame : Obligations.PatternsJoinTheFrame := by
  refine fun s tx bs k i hp ht hk hi hc => ⟨fun hb => ?_, fun hb => ?_⟩
  · have hrow : exec .txpOne s = appendPattern Config.onePattern s := by simp only [exec, execTxpOne, hp]
    exact hrow.trans (appendPattern_eq ht hk hi hc hb)
  · have hrow : exec .txpZero s = appendPattern s.params.zeroPattern s := by simp only [exec, execTxpZero, hp]
    exact hrow.trans (appendPattern_eq ht hk hi hc hb)

/-- Settles O33: the verdict of step 5, on a byte equal to RESET_PATTERN and on any other. -/
theorem echoRowsDeliverTheVerdict : Obligations.EchoRowsDeliverTheVerdict := by
  refine fun s e rest tx hp ht hr => ⟨fun he => ?_, fun he => ?_⟩
  · subst he
    simp only [exec, execRxrstNoPresence, resetVerdict_eq hp hr, if_true, raise, ht, hr, need_some]
  · simp only [exec, execRxrstPresence, resetVerdict_eq hp hr, he, if_false]

/-- Settles O52: by the row and the operation that sends the pattern. -/
theorem frameOfPatternRows : Obligations.FrameOfPatternRows := by
  intro i s t hi h
  simp only [List.mem_cons, List.not_mem_nil, or_false] at hi
  rcases hi with rfl | rfl | rfl
  · simp only [exec, execTxpOne] at h
    split at h
    · exact .inl (appendPattern_frame h)
    · next hp => exact (transmitSlot_frame h).imp_right fun ht => ⟨hp, ht⟩
    · cases h
  · simp only [exec, execTxpZero] at h
    split at h
    · exact .inl (appendPattern_frame h)
    · cases h
  · exact .inl (execTxpReset_frame h)

/-- Settles O53: a bit row accepts its bit (`acceptBit_next`), a malformed row raises SymbolError (`raise_next`). -/
theorem frameOfSlotRows : Obligations.FrameOfSlotRows := by
  refine fun i s t ign r7 r6 r5 r4 h => ⟨fun hi => ?_, fun hi => ?_⟩
  · have haccept : ∃ v, acceptBit v s = .next t := by
      simp only [List.mem_cons, List.not_mem_nil, or_false] at hi
      rcases hi with rfl | rfl <;> exact ⟨_, (slotBit_next h).2⟩
    obtain ⟨v, haccept⟩ := haccept
    obtain ⟨_, _, _, _, -, -, -, -, rfl⟩ := acceptBit_next haccept
    rfl
  · have hraise : raise .symbolError s = .next t := by
      simp only [List.mem_cons, List.not_mem_nil, or_false] at hi
      rcases hi with rfl | rfl | rfl | rfl <;> exact (slotBad_next h).2
    exact raise_next hraise

/-- Settles O54: both rows are the verdict of step 5 (`resetVerdict_next`). -/
theorem frameOfEchoRows : Obligations.FrameOfEchoRows := by
  intro i s t e hi h
  have hverdict : ∃ b, resetVerdict b s = .next t := by
    simp only [List.mem_cons, List.not_mem_nil, or_false] at hi
    rcases hi with rfl | rfl <;> exact ⟨_, h⟩
  obtain ⟨b, hverdict⟩ := hverdict
  obtain ⟨-, -, ⟨-, hraise⟩ | ⟨-, rfl⟩⟩ := resetVerdict_next hverdict
  · exact .inr (raise_next hraise)
  · exact .inl rfl

/-! ## What is handed to TxWrite -/

section Calls
variable {s : State} {e : Event} {bad : State → State}

/-! As in `records_txWrite`, the side conditions say that what is done before the call and after it records nothing. -/

theorem setBaud_call {r : Nat} {ok : State → State} (he : (setBaud r ok bad s).trace = s.trace ++ [e])
    (hok : ∀ w, (ok w).trace = w.trace := by exact fun _ => rfl)
    (hbad : ∀ w, (bad w).trace = w.trace := by exact fun _ => rfl) : e.call = .setBaud r := by
  refine setBaud_rule (P := fun t => t.trace = s.trace ++ [e] → e.call = .setBaud r) (fun h => ?_) (fun h => ?_) he
  all_goals
    simp only [hok, hbad, State.withBaud_trace, State.record_trace, State.popAnswer_trace, List.append_cancel_left_eq,
      List.cons.injEq, and_true] at h
    rw [← h, Event.call]

theorem txWrite_call {buf : List Byte} {ok : State → State} (he : (txWrite buf ok bad s).trace = s.trace ++ [e])
    (hok : ∀ w, (ok w).trace = w.trace := by exact fun _ => rfl)
    (hbad : ∀ w, (bad w).trace = w.trace := by exact fun _ => rfl) : e.call = .txWrite buf := by
  refine txWrite_rule (P := fun t => t.trace = s.trace ++ [e] → e.call = .txWrite buf) (fun h => ?_) (fun h => ?_) he
  all_goals
    simp only [hok, hbad, State.record_trace, State.popAnswer_trace, List.append_cancel_left_eq, List.cons.injEq,
      and_true] at h
    rw [← h, Event.call]

theorem rxRead_call {n : Nat} {ok : List Byte → State → State} (he : (rxRead n ok bad s).trace = s.trace ++ [e])
    (hok : ∀ rx w, (ok rx w).trace = w.trace := by exact fun _ _ => rfl)
    (hbad : ∀ w, (bad w).trace = w.trace := by exact fun _ => rfl) : e.call = .rxRead n := by
  refine rxRead_rule (P := fun t => t.trace = s.trace ++ [e] → e.call = .rxRead n) (fun rx _ h => ?_) (fun h => ?_) he
  all_goals
    simp only [hok, hbad, State.record_trace, State.popAnswer_trace, List.append_cancel_left_eq, List.cons.injEq,
      and_true] at h
    rw [← h, Event.call]

end Calls

/-- In `s` the operation in flight is at the step that transmits, and hands over `buf` (41 R110, 42 R121, R125). -/
def HandsOver (s : State) (buf : List Byte) : Prop :=
  (s.phase = .reset .transmit ∧ buf = [s.params.resetPattern]) ∨
  (s.phase = .read .transmit ∧ buf = [Config.onePattern]) ∨
  (s.phase = .write .transmit ∧ s.txBuf = some buf)

/-- A step that records a TxWrite, returned or failed, is one that transmits. -/
theorem stepped_txWrite {s t : State} {e : Event} {buf : List Byte} (hs : Stepped s t)
    (he : t.trace = s.trace ++ [e]) (hcall : e.call = .txWrite buf) : HandsOver s buf := by
  cases hs with
  | transmitReset hp =>
    obtain rfl : [s.params.resetPattern] = buf := by simpa [txWrite_call he] using hcall
    exact .inl ⟨hp, rfl⟩
  | transmitSlot hp =>
    obtain rfl : [Config.onePattern] = buf := by simpa [txWrite_call he] using hcall
    exact .inr (.inl ⟨hp, rfl⟩)
  | @sendFrame tx hp ht =>
    obtain rfl : tx = buf := by simpa [txWrite_call he] using hcall
    exact .inr (.inr ⟨hp, ht⟩)
  | saveBaud | restore | restoreFailed => simp [setBaud_call he] at hcall
  | receiveEcho | receiveFrame | receiveSlot => simp [rxRead_call he] at hcall
  | endFrame | nextByte => split at he <;> simp at he
  | _ => simp at he -- every other step records nothing

/-- Settles O28: the invariant says what the rate and TXBUF are at the steps that transmit. -/
theorem onlyPatternsAreTransmitted : Obligations.OnlyPatternsAreTransmitted := by
  intro s t h buf hs hstep htrace
  have hover : HandsOver s buf := by
    rcases htrace with he | he
    · exact stepped_txWrite (stepped_of_step hstep) he rfl
    · exact stepped_txWrite (stepped_of_step hstep) he rfl
  rcases hover with ⟨hp, hbuf⟩ | hread | ⟨hp, hbuf⟩
  · obtain ⟨-, -, -, -, hbaud, -⟩ := (consistent_reset hp).mp hs
    exact .inl ⟨hp, hbuf, hbaud⟩
  · exact .inr (.inl hread)
  · obtain ⟨-, -, d, -, -, -, -, hdata, -, -, -, htx⟩ := (consistent_write hp).mp hs
    obtain rfl : buf = frame s.params d := by simpa [hbuf] using htx
    exact .inr (.inr ⟨hp, ⟨d, hdata, rfl⟩, fun _ => eq_pattern_of_mem_frame⟩)

end Sys2Proof.Machine
end

section
/-! PROOFS. The functions of the bit codec: the inverse of ENCODE_BIT, the bits of a byte in bus order, and the slot check
of DECODE_SLOT as a mask (40 R100, R101; 42 R120). -/

namespace Sys2Proof.Machine

/-! ## ENCODE_BIT and its inverse -/

theorem unencode_encodeBit {p : Config.Params} (hz : p.zeroPattern ≠ Config.onePattern) :
    Function.LeftInverse unencode (encodeBit p)
  | true => beq_self_eq_true Config.onePattern
  | false => beq_false_of_ne hz

/-- Settles O7: a function with a left inverse is injective. -/
theorem encodeBitIsOneOfTwoPatterns : Obligations.EncodeBitIsOneOfTwoPatterns :=
  fun _ => ⟨rfl, rfl, fun hz => (unencode_encodeBit hz).injective, rfl, rfl⟩

/-! ## The frame of a byte, mapped back -/

theorem map_unencode_serialize {p : Config.Params} (hz : p.zeroPattern ≠ Config.onePattern) (b : Byte) :
    (serialize p b).map unencode = bitPositions.map (bitOf b) := by
  rw [serialize, List.map_map]
  exact List.map_congr_left fun i _ => unencode_encodeBit hz (bitOf b i)

theorem byteOf_getLsbD (vs : List ProtocolBit) {j : Nat} (hj : j < 8) : (byteOf vs).getLsbD j = vs.getD j false := by
  induction vs generalizing j with
  | nil => simp [byteOf]
  | cons v vs ih =>
    rw [byteOf, BitVec.getLsbD_shiftConcat]
    cases j with
    | zero => simp
    | succ j => simpa [hj] using ih (by omega)

theorem byteOf_bitPositions (b : Byte) : byteOf (bitPositions.map (bitOf b)) = b := by
  refine BitVec.eq_of_getLsbD_eq fun j hj => ?_
  have hplace : bitPositions[j]? = some ⟨j, hj⟩ := by
    have hall : ∀ i : Fin 8, bitPositions[i.val]? = some i := by decide
    exact hall ⟨j, hj⟩
  simp [byteOf_getLsbD _ hj, hplace, bitOf]

/-- Settles O12: the inverse gives the bits of the byte back, in the order in which `byteOf` takes them. -/
theorem frameOfAByteMapsBack : Obligations.FrameOfAByteMapsBack :=
  fun _ b hz => (congrArg byteOf (map_unencode_serialize hz b)).trans (byteOf_bitPositions b)

/-! ## DECODE_SLOT -/

theorem releasedField_eq_iff (e : Byte) : releasedField e = 0xF ↔ e &&& 0xF0 = 0xF0 := by
  decide +revert

theorem decodeSlot_eq_ite (e : Byte) :
    decodeSlot e = if e &&& 0xF0 = 0xF0 then .bit (e.getLsbD 0) else .malformed := by
  simp only [decodeSlot, releasedField_eq_iff]

/-- DECODE_SLOT looks at the upper half and at bit 0 alone. -/
theorem decodeSlot_congr {e f : Byte} (hrel : e &&& 0xF0 = f &&& 0xF0) (hbit : e.getLsbD 0 = f.getLsbD 0) :
    decodeSlot e = decodeSlot f := by
  rw [decodeSlot_eq_ite, decodeSlot_eq_ite, hrel, hbit]

/-- Settles O8: by the mask of the upper half, which bits 3:1 do not meet. -/
theorem decodeSlotChecksTheUpperHalf : Obligations.DecodeSlotChecksTheUpperHalf := by
  refine fun e => ⟨?_, fun hrel => ?_, fun x => decodeSlot_congr ?_ ?_, rfl, rfl, rfl, rfl, rfl⟩
  · simp [decodeSlot_eq_ite]
  · rw [decodeSlot_eq_ite, if_pos hrel]
  · have hkeep : (0xF1 &&& 0xF0 : Byte) = 0xF0 := rfl
    have hdrop : (0x0E &&& 0xF0 : Byte) = 0#8 := rfl
    rw [BitVec.and_or_distrib_right, BitVec.and_assoc, BitVec.and_assoc, hkeep, hdrop, BitVec.and_zero, BitVec.or_zero]
  · simp

end Sys2Proof.Machine
end

section
/-! PROOFS. RESET: what each of its steps does with the answer it is given, that it always ends, and with which rate
(41 R110 to R114). -/

namespace Sys2Proof.Machine

section Answered
variable {s : State} {l : List Answer}

/-! ## A call and the answer the environment's list holds for it -/

theorem setBaud_ret {r : Nat} {ok bad : State → State} {bs : List Byte} (he : s.env = .ret bs :: l) :
    setBaud r ok bad s = ok { s with env := l, trace := s.trace ++ [.setBaud s.params.handle r], baud := r } := by
  simp only [setBaud, State.answer_cons he, State.popAnswer_cons he, State.record, State.withBaud]

theorem txWrite_ret {buf : List Byte} {ok bad : State → State} {bs : List Byte} (he : s.env = .ret bs :: l) :
    txWrite buf ok bad s = ok { s with env := l, trace := s.trace ++ [.txWrite s.params.handle buf] } := by
  simp only [txWrite, State.answer_cons he, State.popAnswer_cons he, State.record]

theorem txWrite_fail {buf : List Byte} {ok bad : State → State} (he : s.env = .fail :: l) :
    txWrite buf ok bad s = bad { s with env := l, trace := s.trace ++ [.failed s.params.handle (.txWrite buf)] } := by
  simp only [txWrite, State.answer_cons he, State.popAnswer_cons he, State.record]

theorem rxRead_ret {n : Nat} {ok : List Byte → State → State} {bad : State → State} {bs : List Byte}
    (he : s.env = .ret bs :: l) :
    rxRead n ok bad s =
      ok (bs.take n) { s with env := l, trace := s.trace ++ [.rxRead s.params.handle n (bs.take n)] } := by
  simp only [rxRead, State.answer_cons he, State.popAnswer_cons he, State.record]

/-! ## The steps of RESET with their answers -/

theorem step_reset_save_ret {bs : List Byte} (hp : s.phase = .reset .save) (he : s.env = .ret bs :: l) :
    step s = .next { s with
      phase := .reset .transmit, savedBaud := some s.baud, baud := s.params.resetBaud, env := l,
      trace := s.trace ++ [.setBaud s.params.handle s.params.resetBaud] } :=
  (step_reset_save hp).trans (congrArg Host.Outcome.next (setBaud_ret he))

theorem step_reset_transmit_ret {bs : List Byte} (hp : s.phase = .reset .transmit) (he : s.env = .ret bs :: l) :
    step s = .next { s with
      phase := .reset .receive, txBuf := some [s.params.resetPattern], env := l,
      trace := s.trace ++ [.txWrite s.params.handle [s.params.resetPattern]] } :=
  (step_reset_transmit hp).trans (congrArg Host.Outcome.next (txWrite_ret he))

theorem step_reset_transmit_fail (hp : s.phase = .reset .transmit) (he : s.env = .fail :: l) :
    step s = .next { s with
      phase := .reset .restoreFailed, txBuf := some [s.params.resetPattern], env := l,
      trace := s.trace ++ [.failed s.params.handle (.txWrite [s.params.resetPattern])] } :=
  (step_reset_transmit hp).trans (congrArg Host.Outcome.next (txWrite_fail he))

theorem step_reset_receive_ret {bs : List Byte} (hp : s.phase = .reset .receive) (he : s.env = .ret bs :: l) :
    step s = .next { s with
      phase := .reset .restore, rxBuf := some (bs.take 1), env := l,
      trace := s.trace ++ [.rxRead s.params.handle 1 (bs.take 1)] } :=
  (step_reset_receive hp).trans (congrArg Host.Outcome.next (rxRead_ret he))

theorem step_reset_restore_ret {b : Nat} {bs : List Byte} (hp : s.phase = .reset .restore)
    (hb : s.savedBaud = some b) (he : s.env = .ret bs :: l) :
    step s = .next { s with
      phase := .reset .decide, baud := b, env := l, trace := s.trace ++ [.setBaud s.params.handle b] } :=
  (step_reset_restore hp hb).trans (congrArg Host.Outcome.next (setBaud_ret he))

/-! ## A run of one step, and the quiet block at the two ends of a RESET -/

theorem runs_one {t : State} (h : step s = .next t) : Runs 1 s t := runs_succ.mpr ⟨t, h, runs_zero.mpr rfl⟩

/-- In the quiet block RESET is accepted. -/
theorem exec_reset_of_quiet (hq : Quiet s) : exec .reset s = .next (s.goto (.reset .save)) := by
  simp only [exec, execReset, accept, hq.1]

/-- Delivering with the registers of the quiet block changes none of them. -/
theorem deliver_of_quiet (hq : Quiet s) (l : List Answer) (tr : List Event) (r : Result) :
    deliver r { s with env := l, trace := tr } = { s with env := l, trace := tr, results := s.results ++ [r] } := by
  obtain ⟨hp, hclear⟩ := hq
  have hidle : s.clearTransients.goto .idle = s := by rw [hclear, State.goto, ← hp]
  exact congrArg (fun u : State => { u with env := l, trace := tr, results := s.results ++ [r] }) hidle

end Answered

/-! ## The statements on single steps and on a Transport that does not fail -/

/-- Settles O34: the row is step 2, whose call returns or fails. -/
theorem txpResetTransmitsTheResetPattern : Obligations.TxpResetTransmitsTheResetPattern := by
  intro s a rest hp
  rw [← (stepRunsTheRowInFlight s).1 hp]
  exact ⟨step_reset_transmit_ret hp, step_reset_transmit_fail hp⟩

/-- Settles O32: an answer of at most one byte is empty or that byte, and step 5 compares it (`step_reset_decide`). -/
theorem noPresenceExactlyWhenSameOrNothing : Obligations.NoPresenceExactlyWhenSameOrNothing := by
  intro s tx rx hp ht hr hlen
  have hiff : rx.length < 1 ∨ rx[0]? = some s.params.resetPattern ↔ rx = [] ∨ rx = [s.params.resetPattern] := by
    rcases rx with _ | ⟨e, _ | ⟨_, _⟩⟩
    · simp
    · simp
    · simp at hlen
  rw [hiff, step_reset_decide hp ht hr hlen]
  exact ⟨fun h => ⟨_, by rw [if_pos h]⟩, fun h => by rw [if_neg h]⟩

/-- Settles O31: each step finds the answer of its call at the head of the environment's list, and the registers given
up at the end held nothing at acceptance. -/
theorem resetPerformsItsFiveSteps : Obligations.ResetPerformsItsFiveSteps := by
  intro s a b e d rest hq he
  have h₁ := runs_one (step_reset_save_ret (s := s.goto (.reset .save)) rfl he)
  have h₂ := runs_add h₁ (runs_one (step_reset_transmit_ret rfl rfl))
  have h₃ := runs_add h₂ (runs_one (step_reset_receive_ret rfl rfl))
  have h₄ := runs_add h₃ (runs_one (step_reset_restore_ret rfl rfl rfl))
  have h₅ := runs_add h₄ (runs_one (step_reset_decide rfl rfl rfl (List.length_take_le 1 e)))
  refine ⟨_, exec_reset_of_quiet hq, fun k hk hk' => ?_, ?_⟩
  · interval_cases k
    · exact ⟨_, h₁, rfl, rfl⟩
    · exact ⟨_, h₂, rfl, rfl⟩
    · exact ⟨_, h₃, rfl, rfl⟩
  · simp only [State.goto_trace, List.append_assoc, List.cons_append, List.nil_append] at h₅
    rw [← deliver_of_quiet hq]
    exact h₅

/-! ## RESET ends, whatever the environment answers -/

section Ends
variable {s u v : State} {k : Nat}

/-- A RESET accepted in `s` has ended in `t` with one of its three results, its last primitive the restoring SetBaud;
when that returned, BAUD is the rate at acceptance. -/
def EndsRestored (s t : State) : Prop :=
  Quiet t ∧ ∃ r, t.results = s.results ++ [r] ∧
    (r = .ok ∨ (∃ pl, r = .err .noPresence pl) ∨ r = .transportFault) ∧
    ((t.baud = s.baud ∧ t.trace.getLast? = some (.setBaud s.params.handle s.baud)) ∨
     (r = .transportFault ∧ t.trace.getLast? = some (.failed s.params.handle (.setBaud s.baud))))

/-- From `u` that end is reached in at most `k` steps. -/
def EndsWithin (k : Nat) (s u : State) : Prop := ∃ j ≤ k, ∃ t, Runs j u t ∧ EndsRestored s t

theorem endsWithin_of_ended (h : EndsRestored s u) : EndsWithin k s u := ⟨0, k.zero_le, u, runs_zero.mpr rfl, h⟩

theorem endsWithin_of_step (hu : step u = .next v) (hv : EndsWithin k s v) : EndsWithin (k + 1) s u := by
  obtain ⟨j, hj, t, hrun, ht⟩ := hv
  exact ⟨j + 1, Nat.succ_le_succ hj, t, runs_succ.mpr ⟨v, hu, hrun⟩, ht⟩

/-- A RESET accepted in `s` is in `u` at its step `n`: what the steps from there on need. -/
def ResetAt (s : State) (n : ResetStep) (u : State) : Prop :=
  u.phase = .reset n ∧ u.params = s.params ∧ u.results = s.results ∧
  match n with
  | .save => u.baud = s.baud
  | .transmit | .restoreFailed => u.savedBaud = some s.baud
  | .receive => u.savedBaud = some s.baud ∧ ∃ tx, u.txBuf = some tx
  | .restore =>
    u.savedBaud = some s.baud ∧ (∃ tx, u.txBuf = some tx) ∧ ∃ rx, u.rxBuf = some rx ∧ rx.length ≤ 1
  | .decide =>
    u.baud = s.baud ∧ u.trace.getLast? = some (.setBaud s.params.handle s.baud) ∧
    (∃ tx, u.txBuf = some tx) ∧ ∃ rx, u.rxBuf = some rx ∧ rx.length ≤ 1

/-- When the restoring SetBaud fails, RESET ends with that failure. -/
theorem endsRestored_restoreFails (hpar : u.params = s.params) (hres : u.results = s.results) :
    EndsRestored s (restoreFails (u.popAnswer.record (.failed u.params.handle (.setBaud s.baud)))) :=
  ⟨deliver_quiet _ _, .transportFault, by simp [hres], .inr (.inr rfl), .inr ⟨rfl, by simp [hpar]⟩⟩

theorem endsWithin_of_restoreFailed (h : ResetAt s .restoreFailed u) : EndsWithin (k + 1) s u := by
  obtain ⟨hp, hpar, hres, hsaved⟩ := h
  exact endsWithin_of_step (step_reset_restoreFailed hp hsaved) (endsWithin_of_ended (setBaud_rule (P := EndsRestored s)
    ⟨deliver_quiet _ _, .transportFault, by simp [hres], .inr (.inr rfl), .inl ⟨rfl, by simp [hpar]⟩⟩
    (endsRestored_restoreFails hpar hres)))

theorem endsWithin_of_decide (h : ResetAt s .decide u) : EndsWithin 1 s u := by
  obtain ⟨hp, -, hres, hbaud, hlast, ⟨tx, htx⟩, rx, hrx, hlen⟩ := h
  refine endsWithin_of_step (step_reset_decide hp htx hrx hlen) (endsWithin_of_ended
    ⟨deliver_quiet _ _, _, by rw [deliver_results, hres], ?_, .inl ⟨hbaud, hlast⟩⟩)
  split
  · exact .inr (.inl ⟨_, rfl⟩)
  · exact .inl rfl

theorem endsWithin_of_restore (h : ResetAt s .restore u) : EndsWithin 2 s u := by
  obtain ⟨hp, hpar, hres, hsaved, htx, hrx⟩ := h
  refine endsWithin_of_step (step_reset_restore hp hsaved) (setBaud_rule (P := EndsWithin 1 s)
    (endsWithin_of_decide ?_) (endsWithin_of_ended (endsRestored_restoreFails hpar hres)))
  simp [ResetAt, hpar, hres, htx, hrx]

theorem endsWithin_of_receive (h : ResetAt s .receive u) : EndsWithin 3 s u := by
  obtain ⟨hp, hpar, hres, hsaved, htx⟩ := h
  refine endsWithin_of_step (step_reset_receive hp) (rxRead_rule (P := EndsWithin 2 s)
    (fun rx hlen => endsWithin_of_restore ?_) (endsWithin_of_restoreFailed ?_))
  · simp [ResetAt, hpar, hres, hsaved, htx, hlen]
  · simp [ResetAt, hpar, hres, hsaved]

theorem endsWithin_of_transmit (h : ResetAt s .transmit u) : EndsWithin 4 s u := by
  obtain ⟨hp, hpar, hres, hsaved⟩ := h
  refine endsWithin_of_step (step_reset_transmit hp) (txWrite_rule (P := EndsWithin 3 s)
    (endsWithin_of_receive ?_) (endsWithin_of_restoreFailed ?_))
  all_goals simp [ResetAt, hpar, hres, hsaved]

theorem endsWithin_of_save (h : ResetAt s .save u) : EndsWithin 5 s u := by
  obtain ⟨hp, hpar, hres, hbaud⟩ := h
  refine endsWithin_of_step (step_reset_save hp) (setBaud_rule (P := EndsWithin 4 s)
    (endsWithin_of_transmit ?_) (endsWithin_of_restoreFailed ?_))
  all_goals simp [ResetAt, hpar, hres, hbaud]

end Ends

/-- Settles O35: from step 1 on every answer leads to the next step, or by way of the restoring SetBaud to the end. -/
theorem resetRestoresBaudOnEveryPath : Obligations.ResetRestoresBaudOnEveryPath := by
  intro s hq
  have hsave : ResetAt s .save (s.goto (.reset .save)) := ⟨rfl, rfl, rfl, rfl⟩
  obtain ⟨k, hk, t, hrun, hquiet, r, hend⟩ := endsWithin_of_save hsave
  exact ⟨_, k, t, r, exec_reset_of_quiet hq, hk, hrun, hquiet, hend⟩

end Sys2Proof.Machine
end

section
/-! PROOFS. WRITE: the patterns of a byte, the frame built byte by byte, the two calls that send it and read it back, and
the comparison (42 R120 to R124). -/

namespace Sys2Proof.Machine

/-! ## SERIALIZE, and the steps that call a function -/

/-- Settles O9: the positions are listed bit 0 first, and each pattern is one of the two ENCODE_BIT gives. -/
theorem serializeIsBitZeroFirst : Obligations.SerializeIsBitZeroFirst := by
  refine fun p b => ⟨rfl, fun w hw => ?_, rfl, rfl, rfl⟩
  obtain ⟨i, -, rfl⟩ := List.mem_map.mp hw
  exact encodeBit_eq_or p _

/-- Settles O17: each of the three steps hands over the function's value, which is all that its row does. -/
theorem stepCallsTheFunctions : Obligations.StepCallsTheFunctions :=
  fun _ hc => ⟨fun _ _ _ _ hp hd hk hi hb => step_write_call hp hd hk hi hb hc, fun hp => step_read_call hp hc,
    fun _ _ hp hr => step_read_decode hp hr hc⟩

section Steps
variable {s : State} {d tx : List Byte} {k : Nat} {b : Byte} {l : List Answer}

/-! ## A byte enters the frame -/

/-- WRITE has called SERIALIZE on the byte `b`, and the first `n` of its patterns have joined the frame `tx`. -/
def joining (s : State) (tx : List Byte) (b : Byte) (n : Fin 8) : State :=
  { s with
    txBuf := some (tx ++ (serialize s.params b).take n.val), bitIdx := some n,
    callResult := some (.patterns (serialize s.params b)) }

section Bytes
variable (hp : s.phase = .write .build) (hd : s.data = some d) (hb : d[k]? = some b) (hk : s.byteIdx = some k)
include hp hd hb hk

theorem step_joining {n : Fin 8} (h7 : n ≠ 7) : step (joining s tx b n) = .next (joining s tx b (n + 1)) := by
  have hjoin := serialize_take_succ s.params b n
  refine (step_write_pattern (s := joining s tx b n) hp hd hk rfl hb rfl rfl).trans ?_
  simp [joining, h7, val_succ_of_ne_seven h7, hjoin, hk]

/-- With bit 7 the byte is in the frame, and the sequencer is at the next one. -/
theorem step_joining_seven : step (joining s tx b 7) = .next { s with
    txBuf := some (tx ++ serialize s.params b), bitIdx := some 0, byteIdx := some (k + 1), callResult := none } := by
  have hall : (serialize s.params b).take 7 ++ [encodeBit s.params (bitOf b 7)] = serialize s.params b := rfl
  refine (step_write_pattern (s := joining s tx b 7) hp hd hk rfl hb rfl rfl).trans ?_
  simp [joining, hall]

/-- The call of SERIALIZE and `n` patterns take `n + 1` steps. -/
theorem runs_joining (hi : s.bitIdx = some 0) (hc : s.callResult = none) (ht : s.txBuf = some tx) (n : Fin 8) :
    Runs (n.val + 1) s (joining s tx b n) := by
  induction n using Fin.induction with
  | zero =>
    refine runs_one ((step_write_call hp hd hk hi hb hc).trans ?_)
    simp [State.returns, joining, ← ht, ← hi]
  | succ n ih =>
    have h7 : n.castSucc ≠ 7 := by simp [Fin.ext_iff]; omega
    have hstep := step_joining hp hd hb hk (tx := tx) h7
    rw [Fin.coeSucc_eq_succ] at hstep
    exact runs_add ih (runs_one hstep)

end Bytes

/-- Settles O40: SERIALIZE is called, seven patterns join the frame, and the eighth moves on to the next byte. -/
theorem nineStepsSerializeAByte : Obligations.NineStepsSerializeAByte := by
  intro s d tx k b hp hd hb hk hi hc ht
  have hrun := runs_add (runs_joining hp hd hb hk hi hc ht 7) (runs_one (step_joining_seven hp hd hb hk))
  rwa [← hi, ← hc] at hrun

/-! ## The frame of a WRITE accepted in the quiet block -/

/-- No function's value is left from an earlier operation. -/
theorem Quiet.callResult (hq : Quiet s) : s.callResult = none := by
  obtain ⟨-, -, -, -, -, -, -, -, -, hc⟩ := hq.registers
  exact hc

/-- In the quiet block WRITE is accepted. -/
theorem exec_write_of_quiet (hq : Quiet s) (d : List Byte) :
    exec (.write d) s = .next { s.goto (.write .start) with data := some d } := by
  simp only [exec, execWrite, accept, hq.1]

/-- WRITE of `d`, accepted in `s`, has the first `k` bytes in its frame. -/
def building (s : State) (d : List Byte) (k : Nat) : State :=
  { s with
    phase := .write .build, data := some d, txBuf := some (frame s.params (d.take k)), byteIdx := some k,
    bitIdx := some 0 }

/-- Each byte takes nine steps. -/
theorem runs_building (hc : s.callResult = none) (d : List Byte) {k : Nat} (hk : k ≤ d.length) :
    Runs (9 * k + 1) { s.goto (.write .start) with data := some d } (building s d k) := by
  induction k with
  | zero => exact runs_one (step_write_start rfl)
  | succ k ih =>
    obtain ⟨b, hb⟩ : ∃ b, d[k]? = some b := ⟨_, List.getElem?_eq_getElem hk⟩
    have hbyte := nineStepsSerializeAByte (building s d k) d _ k b rfl rfl hb rfl rfl hc rfl
    have hcount : 9 * (k + 1) + 1 = 9 * k + 1 + 9 := by omega
    rw [hcount, building, frame_take_succ _ hb]
    exact runs_add (ih (by omega)) hbyte

/-- With all bytes in the frame, the next step finds it complete. -/
theorem step_building_all (d : List Byte) : step (building s d d.length) = .next
    (if d = [] then deliver .ok (building s d d.length) else (building s d d.length).goto (.write .transmit)) := by
  have hend := step_write_end (s := building s d d.length) rfl rfl rfl rfl (List.getElem?_eq_none le_rfl) rfl
  simpa only [List.take_length, frame_eq_nil_iff] using hend

/-- A WRITE of a byte or more is at the step that transmits its frame. -/
theorem runs_write_transmit (hq : Quiet s) {d : List Byte} (hd : d ≠ []) :
    Runs (9 * d.length + 2) { s.goto (.write .start) with data := some d }
      ((building s d d.length).goto (.write .transmit)) := by
  have hend := step_building_all (s := s) d
  rw [if_neg hd] at hend
  have hrun := runs_add (runs_building hq.callResult d le_rfl) (runs_one hend)
  exact hrun

/-! ## The steps after the frame with their answers -/

theorem step_write_transmit_ret {bs : List Byte} (hp : s.phase = .write .transmit) (ht : s.txBuf = some tx)
    (he : s.env = .ret bs :: l) :
    step s = .next { s with
      phase := .write .receive, env := l, trace := s.trace ++ [.txWrite s.params.handle tx] } :=
  (step_write_transmit hp ht).trans (congrArg Host.Outcome.next (txWrite_ret he))

theorem step_write_receive_ret {bs : List Byte} (hp : s.phase = .write .receive) (ht : s.txBuf = some tx)
    (he : s.env = .ret bs :: l) :
    step s = .next { s with
      phase := .write .compare, rxBuf := some (bs.take tx.length), env := l,
      trace := s.trace ++ [.rxRead s.params.handle tx.length (bs.take tx.length)] } :=
  (step_write_receive hp ht).trans (congrArg Host.Outcome.next (rxRead_ret he))

end Steps

/-- A sequence no longer than another differs from it exactly when it is shorter or some byte differs (42 R123). -/
theorem shorter_or_differs_iff {tx rx : List Byte} (hlen : rx.length ≤ tx.length) :
    (rx.length < tx.length ∨ ∃ (j : Nat) (b c : Byte), tx[j]? = some b ∧ rx[j]? = some c ∧ b ≠ c) ↔ rx ≠ tx := by
  refine ⟨?_, fun hne => ?_⟩
  · rintro (hlt | ⟨j, b, c, hb, hc, hne⟩) rfl
    · exact hlt.ne rfl
    · exact hne (by simpa [hb] using hc)
  · by_contra! hsame
    obtain ⟨hle, hbytes⟩ := hsame
    refine hne (List.ext_getElem (by omega) fun j hrx htx => ?_)
    exact (hbytes j _ _ (List.getElem?_eq_getElem htx) (List.getElem?_eq_getElem hrx)).symm

/-- Settles O38: the comparison asks whether the two sequences are equal (`step_write_compare`). -/
theorem collisionExactlyWhenDifferent : Obligations.CollisionExactlyWhenDifferent := by
  intro s tx rx hp ht hr hlen
  rw [shorter_or_differs_iff hlen, not_not, step_write_compare hp ht hr]
  exact ⟨fun hne => by rw [if_neg hne], fun heq => by rw [if_pos heq]⟩

/-- Settles O37: the frame is built byte by byte, each call finds its answer at the head of the environment's list, and
the registers given up at the end held nothing at acceptance. -/
theorem writeSendsItsFrameAndCompares : Obligations.WriteSendsItsFrameAndCompares := by
  intro s d hq
  refine ⟨fun hd => ⟨_, exec_write_of_quiet hq d, ?_⟩, fun a e rest hd he => ⟨_, exec_write_of_quiet hq d, ?_⟩⟩
  · subst hd
    rw [← deliver_of_quiet hq s.env s.trace .ok]
    exact runs_add (runs_building hq.callResult [] le_rfl) (runs_one (step_building_all []))
  · have h₁ := runs_write_transmit hq hd
    have h₂ := runs_add h₁ (runs_one (step_write_transmit_ret rfl rfl he))
    have h₃ := runs_add h₂ (runs_one (step_write_receive_ret rfl rfl rfl))
    have h₄ := runs_add h₃ (runs_one (step_write_compare rfl rfl rfl))
    simp only [building, State.goto, List.take_length, frame_length, List.append_assoc, List.cons_append,
      List.nil_append] at h₄
    rw [← deliver_of_quiet hq]
    exact h₄

end Sys2Proof.Machine
end

section
/-! PROOFS. One slot of READ: the rows that open it and act on its byte, and its five steps (42 R125 to R128). -/

namespace Sys2Proof.Machine

section Steps
variable {s : State} {e : Byte} {l : List Answer}

/-! ## The steps of a slot with their answers -/

theorem step_read_transmit_ret {bs : List Byte} (hp : s.phase = .read .transmit)
    (hc : s.callResult = some (.pattern Config.onePattern)) (he : s.env = .ret bs :: l) :
    step s = .next { s with
      phase := .read .receive, txBuf := some [Config.onePattern], callResult := none, env := l,
      trace := s.trace ++ [.txWrite s.params.handle [Config.onePattern]] } :=
  (step_read_transmit hp hc).trans (congrArg Host.Outcome.next (txWrite_ret he))

/-- The failure ends the READ, so TXBUF is given up with the other registers. -/
theorem step_read_transmit_fail (hp : s.phase = .read .transmit)
    (hc : s.callResult = some (.pattern Config.onePattern)) (he : s.env = .fail :: l) :
    step s = .next (deliver .transportFault { s with
      env := l, trace := s.trace ++ [.failed s.params.handle (.txWrite [Config.onePattern])] }) :=
  (step_read_transmit hp hc).trans (congrArg Host.Outcome.next (txWrite_fail he))

theorem step_read_receive_ret {bs : List Byte} (hp : s.phase = .read .receive) (he : s.env = .ret bs :: l) :
    step s = .next { s with
      phase := .read .decode, rxBuf := some (bs.take 1), env := l,
      trace := s.trace ++ [.rxRead s.params.handle 1 (bs.take 1)] } :=
  (step_read_receive hp).trans (congrArg Host.Outcome.next (rxRead_ret he))

/-! ## A slot row at its step -/

theorem slotBit_eq {rest : List Byte} {v : ProtocolBit} (hp : s.phase = .read .decode)
    (hr : s.rxBuf = some (e :: rest)) (hc : s.callResult = some (.slot (.bit v))) : slotBit e v s = acceptBit v s := by
  rw [slotBit, if_pos (slotReady_iff.mpr ⟨hp, ⟨rest, hr⟩, hc⟩)]

theorem slotBad_eq {tx rest : List Byte} (hp : s.phase = .read .decode) (ht : s.txBuf = some tx)
    (hc : s.callResult = some (.slot .malformed)) (hr : s.rxBuf = some (e :: rest)) :
    slotBad e s = .next (deliver (.err .symbolError ⟨tx, e :: rest⟩) s) := by
  rw [slotBad, if_pos (slotReady_iff.mpr ⟨hp, ⟨rest, hr⟩, hc⟩)]
  simp only [raise, ht, hr, need_some]

/-- The first three steps of a slot: the pattern is asked for and transmitted, and an answer of at most one byte read. -/
theorem runs_slot_answer {x obs : List Byte} (hp : s.phase = .read .transmit) (hc : s.callResult = none)
    (he : s.env = .ret x :: .ret obs :: l) (hlen : obs.length ≤ 1) :
    Runs 3 s { s with
      phase := .read .decode, txBuf := some [Config.onePattern], rxBuf := some obs, env := l,
      trace := s.trace ++ [.txWrite s.params.handle [Config.onePattern], .rxRead s.params.handle 1 obs] } := by
  have h₁ := runs_one (step_read_call hp hc)
  have h₂ := runs_add h₁ (runs_one (step_read_transmit_ret hp rfl he))
  have h₃ := runs_add h₂ (runs_one (step_read_receive_ret rfl rfl))
  rw [List.take_of_length_le hlen] at h₃
  simpa only [State.returns, List.append_assoc, List.cons_append, List.nil_append, ← hc] using h₃

end Steps

/-! ## The rows of a slot, and the slot as a whole -/

/-- Settles O47: the row is the step that opens the slot, whose call returns or fails. -/
theorem txpOneOpensAReadSlot : Obligations.TxpOneOpensAReadSlot := by
  intro s x rest hp hc
  obtain ⟨-, -, -, hrow, -⟩ := stepRunsTheRowInFlight s
  rw [← hrow _ _ hp hc rfl]
  exact ⟨step_read_transmit_ret hp hc, step_read_transmit_fail hp hc⟩

/-- Settles O45: each row accepts the bit of its byte (`acceptBit_eq`). -/
theorem bitRowsPlaceTheBit : Obligations.BitRowsPlaceTheBit := by
  intro s ign k i a o rest v hp hr hc hk hi ha ho
  rw [← acceptBit_eq v ha hi hk ho]
  cases v with
  | true => exact slotBit_eq hp hr hc
  | false => exact slotBit_eq hp hr hc

/-- Settles O46: each row raises SymbolError with the two buffers. -/
theorem malformedRowsEndTheRead : Obligations.MalformedRowsEndTheRead :=
  fun _ _ _ hp ht hc => ⟨fun _ => slotBad_eq hp ht hc, fun _ => slotBad_eq hp ht hc, fun _ => slotBad_eq hp ht hc,
    fun _ => slotBad_eq hp ht hc⟩

/-- Settles O44: three steps to the answer, one to decode its byte, one to accept the bit. -/
theorem fiveStepsReadASlot : Obligations.FiveStepsReadASlot := by
  intro s k i a o x e v rest hp hc hk hi ha ho he hv
  have h₃ := runs_slot_answer hp hc he (by simp)
  have h₄ := runs_add h₃ (runs_one (step_read_decode rfl rfl hc))
  rw [hv] at h₄
  have h₅ := runs_add h₄ (runs_one ((step_read_bit rfl rfl hv rfl).trans (acceptBit_eq v ha hi hk ho)))
  rwa [← hc] at h₅

end Sys2Proof.Machine
end

section
/-! PROOFS. READ slot by slot: the bytes that its sampled bits make, the slots taken so far, the result after the last one
and the end at a malformed one (42 R125 to R127). -/

namespace Sys2Proof.Machine

/-! ## The bytes of a sequence of bits -/

theorem bytesOf_length (bits : List ProtocolBit) (n : Nat) : (bytesOf bits n).length = n := by
  induction n generalizing bits with
  | zero => rfl
  | succ n ih => rw [bytesOf, List.length_cons, ih]

/-- Byte `k` is made of the eight bits after the first `8 * k`. -/
theorem bytesOf_succ (bits : List ProtocolBit) (k : Nat) :
    bytesOf bits (k + 1) = bytesOf bits k ++ [byteOf ((bits.drop (8 * k)).take 8)] := by
  induction k generalizing bits with
  | zero => rfl
  | succ k ih =>
    have hdrop : (bits.drop 8).drop (8 * k) = bits.drop (8 * (k + 1)) := by
      rw [List.drop_drop, Nat.add_comm 8, Nat.mul_succ]
    rw [bytesOf, ih, hdrop, bytesOf, List.cons_append]

/-- Bits beyond the first `k` bytes do not matter to those. -/
theorem bytesOf_append {bits : List ProtocolBit} {k : Nat} (h : 8 * k ≤ bits.length) (more : List ProtocolBit) :
    bytesOf (bits ++ more) k = bytesOf bits k := by
  induction k generalizing bits with
  | zero => rfl
  | succ k ih =>
    have hrest : 8 * k ≤ (bits.drop 8).length := by rw [List.length_drop]; omega
    rw [bytesOf, bytesOf, List.take_append_of_le_length (by omega), List.drop_append_of_le_length (by omega), ih hrest]

/-- The bit put in place after the bits `vs` is the next bit of the byte. -/
theorem placeBit_byteOf {vs : List ProtocolBit} {i : Fin 8} (h : vs.length = i.val) (v : ProtocolBit) :
    placeBit (byteOf vs) v i = byteOf (vs ++ [v]) := by
  refine BitVec.eq_of_getLsbD_eq fun j hj => ?_
  rw [placeBit_getLsbD _ _ _ ⟨j, hj⟩, byteOf_getLsbD _ hj, byteOf_getLsbD _ hj]
  have hplace : j < vs.length ∨ j = vs.length ∨ vs.length < j := by omega
  rcases hplace with hlt | rfl | hgt
  · simp [List.getElem?_append_left hlt, Fin.ext_iff, ← h, hlt.ne]
  · simp [Fin.ext_iff, ← h]
  · simp [Fin.ext_iff, ← h, hgt.ne', hgt.le, List.getElem?_eq_none, Nat.succ_le_of_lt hgt]

/-- With a bit more in place, the byte under assembly is still made of the bits after the first `8 * k`. -/
theorem placeBit_drop {bits : List ProtocolBit} {k : Nat} {i : Fin 8} (h : bits.length = 8 * k + i.val)
    (v : ProtocolBit) :
    placeBit (byteOf (bits.drop (8 * k))) v i = byteOf ((bits ++ [v]).drop (8 * k)) := by
  have hpart : (bits.drop (8 * k)).length = i.val := by rw [List.length_drop]; omega
  rw [placeBit_byteOf hpart, List.drop_append_of_le_length (by omega)]

/-- With its eighth bit a byte is complete. -/
theorem bytesOf_complete {bits : List ProtocolBit} {k : Nat} (h : bits.length = 8 * k + 7) (v : ProtocolBit) :
    bytesOf (bits ++ [v]) (k + 1) = bytesOf bits k ++ [byteOf ((bits ++ [v]).drop (8 * k))] := by
  have hbyte : ((bits ++ [v]).drop (8 * k)).length ≤ 8 := by
    rw [List.length_drop, List.length_append, List.length_singleton]
    omega
  rw [bytesOf_succ, List.take_of_length_le hbyte, bytesOf_append (by omega)]

/-! ## READ, slot by slot -/

theorem decodeSlot_eq_sampledBit {e : Byte} (h : decodeSlot e ≠ .malformed) : decodeSlot e = .bit (sampledBit e) := by
  unfold decodeSlot at h ⊢
  split
  · rfl
  · next hrel => exact absurd (if_neg hrel) h

section Slots
variable {s u : State} {n k : Nat} {es : List Byte} {rest : List Answer}

/-- In the quiet block READ is accepted. -/
theorem exec_read_of_quiet (hq : Quiet s) (n : Nat) :
    exec (.read n) s = .next { s.goto (.read .start) with count := some n } := by
  simp only [exec, execRead, accept, hq.1]

/-- READ(n), accepted in `s`, has had its slots answered with the bytes `es`, and assembled `k` bytes of their bits; `rest`
is what the environment has still to answer. -/
def assembled (s : State) (n k : Nat) (es : List Byte) (rest : List Answer) : State :=
  { s with
    phase := .read .byte, count := some n, byteIdx := some k, out := some (bytesOf (es.map sampledBit) k), env := rest,
    trace := s.trace ++ slotEvents s.params.handle es }

/-- READ is so far, and next begins byte `k` or delivers its result: the other registers no longer matter. -/
def AtByte (s : State) (n k : Nat) (es : List Byte) (rest : List Answer) (u : State) : Prop :=
  ∃ tx rx i a, u = { assembled s n k es rest with txBuf := tx, rxBuf := rx, bitIdx := i, acc := a }

/-- READ next opens the slot for bit `i` of byte `k`, the bits before which are in ACC; TXBUF and RXBUF are `tx` and
`rx`. -/
def slotAt (s : State) (n k : Nat) (i : Fin 8) (es : List Byte) (rest : List Answer) (tx rx : Option (List Byte)) :
    State :=
  { assembled s n k es rest with
    phase := .read .transmit, txBuf := tx, rxBuf := rx, bitIdx := some i,
    acc := some (byteOf ((es.map sampledBit).drop (8 * k))) }

/-- READ is so far that, `es` having reached bit `i` of byte `k`, the slot for that bit is next. -/
def AtSlot (s : State) (n k : Nat) (i : Fin 8) (es : List Byte) (rest : List Answer) (u : State) : Prop :=
  es.length = 8 * k + i.val ∧ ∃ tx rx, u = slotAt s n k i es rest tx rx

/-- The first step after acceptance begins with no slot taken. -/
theorem atByte_of_start (s : State) (n : Nat) :
    ∃ v, Runs 1 { s.goto (.read .start) with count := some n } v ∧ AtByte s n 0 [] s.env v := by
  refine ⟨_, runs_one (step_read_start rfl), s.txBuf, s.rxBuf, s.bitIdx, s.acc, ?_⟩
  simp [assembled, slotEvents, bytesOf, State.goto]

theorem atSlot_of_atByte (h : AtByte s n k es rest u) (hk : k < n) (hlen : es.length = 8 * k) :
    ∃ v, Runs 1 u v ∧ AtSlot s n k 0 es rest v := by
  obtain ⟨tx, rx, i, a, rfl⟩ := h
  have hdone : (es.map sampledBit).drop (8 * k) = [] := by simp [hlen]
  have hstep := step_read_byte (s := { assembled s n k es rest with txBuf := tx, rxBuf := rx, bitIdx := i, acc := a })
    rfl rfl rfl rfl
  rw [if_pos hk] at hstep
  exact ⟨_, runs_one hstep, hlen, tx, rx, by rw [slotAt, hdone]; rfl⟩

/-- After the last byte they are delivered. -/
theorem runs_deliver_of_atByte (hq : Quiet s) (h : AtByte s n n es rest u) : Runs 1 u { s with
    env := rest, trace := s.trace ++ slotEvents s.params.handle es,
    results := s.results ++ [.okBytes (bytesOf (es.map sampledBit) n)] } := by
  obtain ⟨tx, rx, i, a, rfl⟩ := h
  have hstep := step_read_byte (s := { assembled s n n es rest with txBuf := tx, rxBuf := rx, bitIdx := i, acc := a })
    rfl rfl rfl rfl
  rw [if_neg n.lt_irrefl] at hstep
  rw [← deliver_of_quiet hq]
  exact runs_one hstep

/-- A slot answered with a well-formed byte: five steps put its bit in place. -/
theorem runs_slot (hq : Quiet s) {i : Fin 8} {x : List Byte} {e : Byte} (he : decodeSlot e ≠ .malformed)
    (h : AtSlot s n k i es (.ret x :: .ret [e] :: rest) u) :
    ∃ v, Runs 5 u v ∧
      (i = 7 ∧ AtByte s n (k + 1) (es ++ [e]) rest v ∨ i ≠ 7 ∧ AtSlot s n k (i + 1) (es ++ [e]) rest v) := by
  have hc := hq.callResult
  obtain ⟨hlen, tx, rx, rfl⟩ := h
  have hrun := fiveStepsReadASlot (slotAt s n k i es (.ret x :: .ret [e] :: rest) tx rx) k i _ _ x e _ rest rfl hc rfl
    rfl rfl rfl rfl (decodeSlot_eq_sampledBit he)
  have hbits : (es.map sampledBit).length = 8 * k + i.val := by rw [List.length_map, hlen]
  have hmap : (es ++ [e]).map sampledBit = es.map sampledBit ++ [sampledBit e] := List.map_append
  have hevents : slotEvents s.params.handle (es ++ [e]) = slotEvents s.params.handle es ++
      [.txWrite s.params.handle [0xFF], .rxRead s.params.handle 1 [e]] := List.flatMap_append
  rw [placeBit_drop hbits, ← hmap] at hrun
  refine ⟨_, hrun, ?_⟩
  by_cases h7 : i = 7
  · subst h7
    refine .inl ⟨rfl, some [0xFF], some [e], some 7, some (byteOf (((es ++ [e]).map sampledBit).drop (8 * k))), ?_⟩
    simp only [slotAt, assembled, hmap, bytesOf_complete hbits, hevents, List.append_assoc, if_true]
  · have hnext : (es ++ [e]).length = 8 * k + (i + 1).val := by
      rw [val_succ_of_ne_seven h7, List.length_append, hlen, List.length_singleton, Nat.add_assoc]
    refine .inr ⟨h7, hnext, some [0xFF], some [e], ?_⟩
    simp only [slotAt, assembled, hmap, bytesOf_append (by omega : 8 * k ≤ (es.map sampledBit).length), hevents,
      List.append_assoc, h7, if_false]

/-- READ reaches the slot after the bytes `es`. -/
theorem runs_to_slot (hq : Quiet s) (hlen : es.length < 8 * n) (hes : ∀ e ∈ es, decodeSlot e ≠ .malformed)
    (henv : s.env = slotAnswers es ++ rest) :
    ∃ k i u, Runs (5 * es.length + k + 2) { s.goto (.read .start) with count := some n } u ∧
      AtSlot s n k i es rest u := by
  induction es using List.reverseRecOn generalizing rest with
  | nil =>
    obtain ⟨v, hv, hbyte⟩ := atByte_of_start s n
    obtain ⟨w, hw, hslot⟩ := atSlot_of_atByte hbyte (by simpa using hlen) rfl
    have hrun := runs_add hv hw
    rw [henv] at hslot
    exact ⟨0, 0, w, hrun, hslot⟩
  | append_singleton es e ih =>
    simp only [List.length_append, List.length_singleton, List.forall_mem_append, List.forall_mem_singleton] at hlen hes
    obtain ⟨hes, he⟩ := hes
    obtain ⟨k, i, u, hu, hslot⟩ := ih (rest := .ret [] :: .ret [e] :: rest) (by omega) hes
      (by simpa [slotAnswers] using henv)
    obtain ⟨v, hv, ⟨rfl, hbyte⟩ | ⟨-, hnext⟩⟩ := runs_slot hq he hslot
    · have hplace : es.length = 8 * k + 7 := hslot.1
      obtain ⟨w, hw, hnext⟩ := atSlot_of_atByte hbyte (by omega) (by simp [hplace, Nat.mul_succ])
      have hcount : 5 * (es ++ [e]).length + (k + 1) + 2 = 5 * es.length + k + 2 + 5 + 1 := by simp; omega
      exact ⟨k + 1, 0, w, hcount ▸ runs_add (runs_add hu hv) hw, hnext⟩
    · have hcount : 5 * (es ++ [e]).length + k + 2 = 5 * es.length + k + 2 + 5 := by simp; omega
      exact ⟨k, i + 1, v, hcount ▸ runs_add hu hv, hnext⟩

end Slots

/-- Settles O42: all slots but the last have been taken (`runs_to_slot`); with the last one the last byte is complete. -/
theorem readReturnsTheSampledBits : Obligations.ReadReturnsTheSampledBits := by
  refine fun s n es rest hq hlen hes henv => ⟨bytesOf_length _ n, _, exec_read_of_quiet hq n, ?_⟩
  cases es using List.reverseRecOn with
  | nil =>
    obtain rfl : n = 0 := by simpa using hlen.symm
    obtain ⟨v, hv, hbyte⟩ := atByte_of_start s 0
    rw [henv] at hbyte
    have hrun := runs_add hv (runs_deliver_of_atByte hq hbyte)
    exact hrun
  | append_singleton es e =>
    simp only [List.length_append, List.length_singleton, List.forall_mem_append, List.forall_mem_singleton] at hlen hes
    obtain ⟨hes, he⟩ := hes
    obtain ⟨k, i, u, hu, hslot⟩ := runs_to_slot (n := n) (rest := .ret [] :: .ret [e] :: rest) hq (by omega) hes
      (by simpa [slotAnswers] using henv)
    have hplace := hslot.1
    obtain rfl : n = k + 1 := by omega
    obtain ⟨v, hv, ⟨-, hbyte⟩ | ⟨h7, -⟩⟩ := runs_slot hq he hslot
    · have hcount : 41 * (k + 1) + 2 = 5 * es.length + k + 2 + 5 + 1 := by omega
      exact hcount ▸ runs_add (runs_add hu hv) (runs_deliver_of_atByte hq hbyte)
    · omega -- the last bit is bit 7

/-- Settles O43: the slots before have been taken (`runs_to_slot`); an empty answer ends the READ at the step that acts on
it, a malformed byte once DECODE_SLOT has said so. -/
theorem readAbortsAtTheFirstMalformedSlot : Obligations.ReadAbortsAtTheFirstMalformedSlot := by
  intro s n es a obs rest hq hlen hes hobs henv
  have hc := hq.callResult
  obtain ⟨k, i, u, hu, -, tx, rx, rfl⟩ := runs_to_slot hq hlen hes henv
  rw [← deliver_of_quiet hq]
  have hone : obs.length ≤ 1 := by rcases hobs with rfl | ⟨e, rfl, -⟩ <;> simp
  have h₁ := runs_add hu (runs_slot_answer rfl (by exact hc) rfl hone)
  obtain rfl | ⟨e, rfl, he⟩ := hobs
  · have h₂ := runs_add h₁ (runs_one (step_read_empty rfl rfl rfl))
    exact ⟨_, _, exec_read_of_quiet hq n, h₂⟩
  · have h₂ := runs_add h₁ (runs_one (step_read_decode rfl rfl (by exact hc)))
    rw [he] at h₂
    have h₃ := runs_add h₂ (runs_one (step_read_malformed rfl rfl rfl he rfl))
    exact ⟨_, _, exec_read_of_quiet hq n, h₃⟩

end Sys2Proof.Machine
end

section
/-! PROOFS. Commands and bytes at the façade: what the idle block accepts, and what is refused elsewhere (43 R140, R141,
R143). -/

namespace Sys2Proof.Machine

section Facade
variable {s : State}

/-! ## Commands -/

theorem accept_idle {f : State → State} (h : s.phase = .idle) : accept f s = .next (f s) := by
  simp only [accept, h]

theorem accept_inFlight {f : State → State} (h : s.phase ≠ .idle) : accept f s = .refused .commandInFlight := by
  unfold accept
  split
  · contradiction
  · rfl

/-- The host presents one of the three commands, or the reserved selector. -/
theorem decodeCmd_cases (w : CmdWord) :
    decodeCmd w = .reset ∨ decodeCmd w = .write w.data ∨ decodeCmd w = .read w.count ∨
    (decodeCmd w = .cmdReserved ∧ w.op = 0b11) := by
  obtain ⟨op, data, count⟩ := w
  have hop : op = 0b00 ∨ op = 0b01 ∨ op = 0b10 ∨ op = 0b11 := by decide +revert
  rcases hop with rfl | rfl | rfl | rfl
  · exact .inl rfl
  · exact .inr (.inl rfl)
  · exact .inr (.inr (.inl rfl))
  · exact .inr (.inr (.inr ⟨rfl, rfl⟩))

/-! ## Bytes presented elsewhere than at their step -/

theorem execTxpOne_elsewhere (hw : s.phase ≠ .write .build) (hr : s.phase ≠ .read .transmit) :
    execTxpOne s = .refused .outOfSequence := by
  unfold execTxpOne
  split
  · contradiction
  · contradiction
  · rfl

theorem execTxpZero_elsewhere (h : s.phase ≠ .write .build) : execTxpZero s = .refused .outOfSequence := by
  unfold execTxpZero
  split
  · contradiction
  · rfl

theorem execTxpReset_elsewhere (h : s.phase ≠ .reset .transmit) : execTxpReset s = .refused .outOfSequence := by
  unfold execTxpReset
  split
  · contradiction
  · rfl

theorem not_slotReady_elsewhere {e : Byte} {r : SlotResult} (h : s.phase ≠ .read .decode) : ¬ slotReady e r s :=
  fun hready => h (slotReady_iff.mp hready).1

theorem slotBit_elsewhere {e : Byte} {v : ProtocolBit} (h : s.phase ≠ .read .decode) :
    slotBit e v s = .refused .outOfSequence :=
  if_neg (not_slotReady_elsewhere h)

theorem slotBad_elsewhere {e : Byte} (h : s.phase ≠ .read .decode) : slotBad e s = .refused .outOfSequence :=
  if_neg (not_slotReady_elsewhere h)

theorem resetVerdict_elsewhere {e : Byte} (h : s.phase ≠ .reset .decide) :
    resetVerdict e s = .refused .outOfSequence := by
  simp [resetVerdict, h]

end Facade

/-! ## The statements on commands and bytes -/

/-- Settles O15: the idle block fetches the head of the host's list (`step_idle_command`). -/
theorem stepRunsTheCommand : Obligations.StepRunsTheCommand :=
  fun _ _ _ hp hq => ⟨rfl, step_idle_command hp hq⟩

/-- Settles O18: each command is an acceptance (`accept_idle`). -/
theorem idleBlockAcceptsEveryCommand : Obligations.IdleBlockAcceptsEveryCommand := by
  refine fun s d n hp => ⟨?_, ?_, ?_⟩
  · simp only [exec, execReset, accept_idle hp, State.goto]
  · simp only [exec, execWrite, accept_idle hp, State.goto]
  · simp only [exec, execRead, accept_idle hp, State.goto]

/-- Settles O19: each command is an acceptance (`accept_inFlight`). -/
theorem commandInFlightIsRefused : Obligations.CommandInFlightIsRefused := by
  refine fun s d n hp => ⟨?_, ?_, ?_⟩
  · simp only [exec, execReset, accept_inFlight hp]
  · simp only [exec, execWrite, accept_inFlight hp]
  · simp only [exec, execRead, accept_inFlight hp]

/-- Settles O21: each row asks for the position at which its byte is handled. -/
theorem foreignBytesAreRefused : Obligations.ForeignBytesAreRefused := by
  refine fun s => ⟨execTxpOne_elsewhere, execTxpZero_elsewhere, execTxpReset_elsewhere,
    fun hp i ign r7 r6 r5 r4 hi => ?_, fun hp e => ⟨resetVerdict_elsewhere hp, resetVerdict_elsewhere hp⟩⟩
  simp only [List.mem_cons, List.not_mem_nil, or_false] at hi
  rcases hi with rfl | rfl | rfl | rfl | rfl | rfl
  · exact slotBit_elsewhere hp
  · exact slotBit_elsewhere hp
  all_goals exact slotBad_elsewhere hp

/-- Settles O24: delivery is one update of the state, whose other fields stand. -/
theorem deliveryEndsTheOperation : Obligations.DeliveryEndsTheOperation :=
  fun r s => ⟨deliver_quiet r s, rfl, rfl, rfl, rfl, rfl, rfl, rfl⟩

/-- Settles O51: a command that answers was accepted (`accept_next`), and its update names the fields it writes. -/
theorem frameOfCommands : Obligations.FrameOfCommands := by
  intro i s t d n hi h
  simp only [List.mem_cons, List.not_mem_nil, or_false] at hi
  rcases hi with rfl | rfl | rfl
  all_goals
    simp only [exec, execReset, execWrite, execRead] at h
    obtain ⟨-, rfl⟩ := accept_next h
  · exact ⟨rfl, fun _ => rfl, fun _ => rfl⟩
  · exact ⟨rfl, fun hne => absurd rfl hne, fun _ => rfl⟩
  · exact ⟨rfl, fun _ => rfl, fun hne => absurd rfl hne⟩

end Sys2Proof.Machine
end

section
/-! PROOFS. An operation in flight: that the host cannot touch it, that it never gets stuck, and that it ends, after a
bounded number of steps, with exactly one result (43 R142, R144, R147). -/

namespace Sys2Proof.Machine

/-! ## The host -/

/-- In flight a step is the same whatever the host has still to present. -/
theorem step_pending {s t : State} (h : step s = .next t) (hp : s.phase ≠ .idle) (q : List CmdWord) :
    step { s with pending := q } = .next { t with pending := q } := by
  have hv := vary_step (s := s) (v := ⟨id, fun _ => q, [], []⟩) (fun _ => rfl) (fun hidle => absurd hidle hp)
  rw [h] at hv
  exact hv

/-- Settles O22: with the commands it had, the step in flight leaves those commands. -/
theorem hostCannotTouchAnOperation : Obligations.HostCannotTouchAnOperation := by
  refine fun s t q hp h => ⟨?_, step_pending h hp q⟩
  have hq := (step_pending h hp s.pending).symm.trans h
  simp only [Host.Outcome.next.injEq] at hq
  rw [← hq]

/-- Settles O57: in flight the invariant gives the next state; the idle block accepts all but the reserved selector. -/
theorem noOperationGetsStuck : Obligations.NoOperationGetsStuck := by
  intro s hs
  by_cases hp : s.phase = .idle
  · rcases hq : s.pending with _ | ⟨w, ws⟩
    · exact .inl ⟨s, step_idle_wait hp hq⟩
    · obtain ⟨hreset, hwrite, hread⟩ := idleBlockAcceptsEveryCommand { s with pending := ws } w.data w.count hp
      rw [step_idle_command hp hq]
      rcases decodeCmd_cases w with hw | hw | hw | ⟨hw, hop⟩
      · exact .inl ⟨_, hw ▸ hreset⟩
      · exact .inl ⟨_, hw ▸ hwrite⟩
      · exact .inl ⟨_, hw ▸ hread⟩
      · exact .inr ⟨hw ▸ reservedSelectorIsRefused _, hp, w, ws, rfl, hop⟩
  · obtain ⟨t, ht, -⟩ := consistent_step_inFlight hp hs
    exact .inl ⟨t, ht⟩

/-! ## How many steps an operation takes before the one that delivers its result -/

/-- The steps of RESET from its step `n` on, its last one not counted. -/
@[simp] def resetStepsLeft : ResetStep → Nat
  | .save => 4
  | .transmit => 3
  | .receive => 2
  | .restore => 1
  | .restoreFailed => 0
  | .decide => 0

/-- The steps that WRITE has taken for the byte at BYTEIDX when it is at bit `i`: the call of SERIALIZE, and one for
each pattern. -/
@[simp] def byteStepsTaken (i : Fin 8) : Option CallResult → Nat
  | some (.patterns _) => i.val + 1
  | _ => 0

/-- The steps of WRITE from its step `n` on, its last one not counted: nine for each byte, and those of the frame. -/
@[simp] def writeStepsLeft (s : State) : WriteStep → Nat
  | .start => 9 * (s.data.getD []).length + 4
  | .build =>
    9 * ((s.data.getD []).length - s.byteIdx.getD 0) - byteStepsTaken (s.bitIdx.getD 0) s.callResult + 3
  | .transmit => 2
  | .receive => 1
  | .compare => 0

/-- The steps of READ from the beginning of a slot on, its last one not counted: five for each slot of the byte at
BYTEIDX, 41 for each byte after it. -/
@[simp] def slotStepsLeft (s : State) : Nat :=
  41 * (s.count.getD 0 - s.byteIdx.getD 0 - 1) + 5 * (8 - (s.bitIdx.getD 0).val)

/-- One when READ has called ENCODE_BIT for its slot. -/
@[simp] def encodeStepsTaken : Option CallResult → Nat
  | some (.pattern _) => 1
  | _ => 0

/-- One when READ has called DECODE_SLOT for its slot. -/
@[simp] def decodeStepsTaken : Option CallResult → Nat
  | some (.slot _) => 1
  | _ => 0

/-- The steps of READ from its step `n` on, its last one not counted. -/
@[simp] def readStepsLeft (s : State) : ReadStep → Nat
  | .start => 41 * s.count.getD 0 + 1
  | .byte => 41 * (s.count.getD 0 - s.byteIdx.getD 0)
  | .transmit => slotStepsLeft s - encodeStepsTaken s.callResult
  | .receive => slotStepsLeft s - 2
  | .decode => slotStepsLeft s - 3 - decodeStepsTaken s.callResult

/-- The steps that the operation in flight can still take before the one that delivers its result. -/
@[simp] def stepsBeforeResult (s : State) : Nat :=
  match s.phase with
  | .idle => 0
  | .reset n => resetStepsLeft n
  | .write n => writeStepsLeft s n
  | .read n => readStepsLeft s n

section InFlight
variable {s t u : State}

/-- The slots left of the byte at BYTEIDX and the bytes after it are no more than the operand asks for. -/
theorem slotStepsLeft_le {c : Nat} (hc : s.count = some c) (hs : SlotInv c s) : slotStepsLeft s ≤ 41 * c := by
  obtain ⟨k, i, _, _, hk, hlt, hi, -⟩ := hs
  simp only [slotStepsLeft, hc, hk, hi, Option.getD_some]
  omega

theorem readStepsLeft_le {n : ReadStep} {c : Nat} (h : ReadInv n c s) : readStepsLeft s n ≤ 41 * c + 1 := by
  obtain ⟨-, -, hc, hn⟩ := h
  cases n with
  | start => rw [readStepsLeft, hc, Option.getD_some]
  | byte =>
    rw [readStepsLeft, hc, Option.getD_some]
    omega
  | transmit =>
    obtain ⟨-, hslot⟩ := hn
    exact (Nat.sub_le ..).trans (Nat.le_succ_of_le (slotStepsLeft_le hc hslot))
  | receive =>
    obtain ⟨-, -, hslot⟩ := hn
    exact (Nat.sub_le ..).trans (Nat.le_succ_of_le (slotStepsLeft_le hc hslot))
  | decode =>
    obtain ⟨-, hslot, -⟩ := hn
    have hle := slotStepsLeft_le hc hslot
    rw [readStepsLeft]
    omega

/-- The bound of the operand leaves one step for the result. -/
theorem stepsBeforeResult_lt_stepBound (hp : s.phase ≠ .idle) (hs : Consistent s) :
    stepsBeforeResult s < stepBound s := by
  rcases hn : s.phase with _ | n | n | n
  · exact absurd hn hp
  · cases n <;> simp [stepBound, hn, Phase.op]
  · cases n with
    | build =>
      simp [stepBound, hn, Phase.op]
      omega
    | _ => simp [stepBound, hn, Phase.op]
  · obtain ⟨-, -, c, hi⟩ := (consistent_read hn).mp hs
    have hle := readStepsLeft_le hi
    obtain ⟨-, -, hc, -⟩ := hi
    simp only [stepsBeforeResult, stepBound, hn, Phase.op, hc, Option.getD_some]
    omega

/-! ## A step goes on with the operation in flight or ends it -/

/-- From `s` to `t` the operation in flight goes on, nearer to its result. -/
def GoesOn (s t : State) : Prop :=
  t.phase ≠ .idle ∧ t.results = s.results ∧ stepsBeforeResult t < stepsBeforeResult s

/-- From `s` to `t` the operation in flight ends with one result. -/
def EndsWithResult (s t : State) : Prop := Quiet t ∧ ∃ r, t.results = s.results ++ [r]

/-- From `s` to `t` the operation in flight does one of the two. -/
def Proceeds (s t : State) : Prop := GoesOn s t ∨ EndsWithResult s t

theorem proceeds_deliver (r : Result) (hu : u.results = s.results) : Proceeds s (deliver r u) :=
  .inr ⟨deliver_quiet r u, r, congrArg (· ++ [r]) hu⟩

/-- Whatever the environment answers: a call that fails ends the operation as well, in RESET after the restoring one. -/
theorem stepped_proceeds (hp : s.phase ≠ .idle) (h : Stepped s t) : Proceeds s t := by
  cases h with
  | wait h | acceptReset h | acceptWrite h | acceptRead h => exact absurd h hp
  | saveBaud h => exact setBaud_rule (.inl (by simp [GoesOn, h])) (.inl (by simp [GoesOn, h]))
  | transmitReset h => exact txWrite_rule (.inl (by simp [GoesOn, h])) (.inl (by simp [GoesOn, h]))
  | receiveEcho h => exact rxRead_rule (fun _ _ => .inl (by simp [GoesOn, h])) (.inl (by simp [GoesOn, h]))
  | restore h => exact setBaud_rule (.inl (by simp [GoesOn, h])) (proceeds_deliver _ (by simp))
  | restoreFailed => exact setBaud_rule (proceeds_deliver _ (by simp)) (proceeds_deliver _ (by simp))
  | presence | noPresence | compareFrame | symbolError => exact proceeds_deliver _ rfl
  | startFrame h => exact .inl (by simp [GoesOn, h])
  | @callSerialize d k i b h hd hk hi hb =>
    have hlt : k < d.length := (List.getElem?_eq_some_iff.mp hb).1
    refine .inl ?_
    simp [GoesOn, h, hd, hk, hi]
    omega
  | @pattern d bs tx k i b w h hd hk hi hb hc =>
    have hlt : k < d.length := (List.getElem?_eq_some_iff.mp hb).1
    refine .inl ?_
    by_cases h7 : i = 7
    · simp [GoesOn, h, hd, hk, hi, hc, h7]
      omega
    · simp [GoesOn, h, hd, hk, hi, hc, h7, val_succ_of_ne_seven h7]
      omega
  | endFrame h =>
    split
    · exact proceeds_deliver _ rfl
    · exact .inl (by simp [GoesOn, h])
  | sendFrame h => exact txWrite_rule (.inl (by simp [GoesOn, h])) (proceeds_deliver _ (by simp))
  | receiveFrame h => exact rxRead_rule (fun _ _ => .inl (by simp [GoesOn, h])) (proceeds_deliver _ (by simp))
  | startRead h => exact .inl (by simp [GoesOn, h])
  | @nextByte n k o h hn hk =>
    split
    · refine .inl ?_
      simp [GoesOn, h, hn, hk]
      omega
    · exact proceeds_deliver _ rfl
  | callEncode h => exact .inl (by simp [GoesOn, h])
  | transmitSlot h hc =>
    refine txWrite_rule (.inl ?_) (proceeds_deliver _ (by simp))
    simp [GoesOn, h, hc]
    omega
  | receiveSlot h =>
    refine rxRead_rule (fun _ _ => .inl ?_) (proceeds_deliver _ (by simp))
    simp [GoesOn, h]
    omega
  | callDecode h =>
    refine .inl ?_
    simp [GoesOn, h]
    omega
  | @bit e a rest o v i k h hr hc ha hi hk =>
    refine .inl ?_
    by_cases h7 : i = 7
    · simp [GoesOn, h, hc, hi, hk, h7]
      omega
    · simp [GoesOn, h, hc, hi, hk, h7, val_succ_of_ne_seven h7]
      omega

/-- The idle block delivers nothing. -/
theorem results_of_idle_step (hp : s.phase = .idle) (h : Stepped s t) : t.results = s.results := by
  cases h with
  | wait | acceptReset | acceptWrite | acceptRead => rfl
  | _ => simp_all -- every other step is taken in flight

/-- From a consistent state an operation in flight ends with one result, within its steps and the one that delivers. -/
theorem runs_to_result (hp : s.phase ≠ .idle) (hs : Consistent s) :
    ∃ k t, 0 < k ∧ k ≤ stepsBeforeResult s + 1 ∧ Runs k s t ∧ EndsWithResult s t := by
  induction hn : stepsBeforeResult s using Nat.strong_induction_on generalizing s with
  | _ n ih =>
    obtain ⟨u, hu, hcons⟩ := consistent_step_inFlight hp hs
    rcases stepped_proceeds hp (stepped_of_step hu) with ⟨hpu, hres, hlt⟩ | hend
    · obtain ⟨k, t, -, hk, hrun, hend⟩ := ih _ (hn ▸ hlt) hpu hcons rfl
      rw [EndsWithResult, hres] at hend
      exact ⟨k + 1, t, k.succ_pos, by omega, runs_succ.mpr ⟨u, hu, hrun⟩, hend⟩
    · exact ⟨1, u, one_pos, by omega, runs_one hu, hend⟩

end InFlight

/-- Settles O25: in flight a step goes on or ends the operation, and idle it delivers nothing. -/
theorem oneResultEndsAnOperation : Obligations.OneResultEndsAnOperation := by
  intro s t h
  have hstep := stepped_of_step h
  have hnone (hr : t.results = s.results) : ¬ ∃ r, t.results = s.results ++ [r] := by simp [hr]
  by_cases hp : s.phase = .idle
  · have hr := results_of_idle_step hp hstep
    exact ⟨iff_of_false (fun hend => hend.1 hp) (hnone hr), .inl hr⟩
  · rcases stepped_proceeds hp hstep with ⟨ht, hr, -⟩ | ⟨hq, r, hr⟩
    · exact ⟨iff_of_false (fun hend => ht hend.2) (hnone hr), .inl hr⟩
    · exact ⟨iff_of_true ⟨hp, hq.1⟩ ⟨r, hr⟩, .inr ⟨r, hr, hq⟩⟩

/-- Settles O58: each step goes on, nearer to the result, until one delivers it (`runs_to_result`). -/
theorem everyOperationEndsWithOneResult : Obligations.EveryOperationEndsWithOneResult := by
  intro s hs hp
  obtain ⟨k, t, hpos, hk, hrun, hq, r, hr⟩ := runs_to_result hp hs
  exact ⟨k, t, r, hpos, hk.trans (stepsBeforeResult_lt_stepBound hp hs), hrun, hq, hr⟩

end Sys2Proof.Machine
end

section
/-! PROOFS. A Transport that fails: each call with a failure for its answer, and how RESET, WRITE and READ pass it on
(60 R157). -/

namespace Sys2Proof.Machine

section Failing
variable {s : State} {tx : List Byte} {b : Nat} {l : List Answer}

/-! ## The calls and the steps that fail -/

theorem setBaud_fail {r : Nat} {ok bad : State → State} (he : s.env = .fail :: l) :
    setBaud r ok bad s = bad { s with env := l, trace := s.trace ++ [.failed s.params.handle (.setBaud r)] } := by
  simp only [setBaud, State.answer_cons he, State.popAnswer_cons he, State.record]

theorem rxRead_fail {n : Nat} {ok : List Byte → State → State} {bad : State → State} (he : s.env = .fail :: l) :
    rxRead n ok bad s = bad { s with env := l, trace := s.trace ++ [.failed s.params.handle (.rxRead n)] } := by
  simp only [rxRead, State.answer_cons he, State.popAnswer_cons he, State.record]

/-- BAUD holds RESET_BAUD although the call has failed (10 R22). -/
theorem step_reset_save_fail (hp : s.phase = .reset .save) (he : s.env = .fail :: l) :
    step s = .next { s with
      phase := .reset .restoreFailed, savedBaud := some s.baud, baud := s.params.resetBaud, env := l,
      trace := s.trace ++ [.failed s.params.handle (.setBaud s.params.resetBaud)] } :=
  (step_reset_save hp).trans (congrArg Host.Outcome.next (setBaud_fail he))

theorem step_reset_receive_fail (hp : s.phase = .reset .receive) (he : s.env = .fail :: l) :
    step s = .next { s with
      phase := .reset .restoreFailed, env := l, trace := s.trace ++ [.failed s.params.handle (.rxRead 1)] } :=
  (step_reset_receive hp).trans (congrArg Host.Outcome.next (rxRead_fail he))

/-- The restoring SetBaud fails: BAUD is free (log entry 8). -/
theorem step_reset_restore_fail (hp : s.phase = .reset .restore) (hb : s.savedBaud = some b)
    (he : s.env = .fail :: l) :
    step s = .next (restoreFails { s with
      env := l, trace := s.trace ++ [.failed s.params.handle (.setBaud b)] }) :=
  (step_reset_restore hp hb).trans (congrArg Host.Outcome.next (setBaud_fail he))

/-- After a failure the restoring SetBaud returns: the rate is back, and the failure is passed on. -/
theorem step_reset_restoreFailed_ret {bs : List Byte} (hp : s.phase = .reset .restoreFailed)
    (hb : s.savedBaud = some b) (he : s.env = .ret bs :: l) :
    step s = .next (deliver .transportFault { s with
      env := l, trace := s.trace ++ [.setBaud s.params.handle b], baud := b }) :=
  (step_reset_restoreFailed hp hb).trans (congrArg Host.Outcome.next (setBaud_ret he))

theorem step_write_transmit_fail (hp : s.phase = .write .transmit) (ht : s.txBuf = some tx) (he : s.env = .fail :: l) :
    step s = .next (deliver .transportFault { s with
      env := l, trace := s.trace ++ [.failed s.params.handle (.txWrite tx)] }) :=
  (step_write_transmit hp ht).trans (congrArg Host.Outcome.next (txWrite_fail he))

theorem step_write_receive_fail (hp : s.phase = .write .receive) (ht : s.txBuf = some tx) (he : s.env = .fail :: l) :
    step s = .next (deliver .transportFault { s with
      env := l, trace := s.trace ++ [.failed s.params.handle (.rxRead tx.length)] }) :=
  (step_write_receive hp ht).trans (congrArg Host.Outcome.next (rxRead_fail he))

theorem step_read_receive_fail (hp : s.phase = .read .receive) (he : s.env = .fail :: l) :
    step s = .next (deliver .transportFault { s with
      env := l, trace := s.trace ++ [.failed s.params.handle (.rxRead 1)] }) :=
  (step_read_receive hp).trans (congrArg Host.Outcome.next (rxRead_fail he))

end Failing

/-! ## Each operation passes the failure on -/

/-- Settles O36: the run up to the call that fails is that of O31; a failure in step 1, 2 or 3 leads to the restoring
SetBaud (`step_reset_restoreFailed_ret`), one in step 4 ends RESET there. -/
theorem resetPassesATransportFaultOn : Obligations.ResetPassesATransportFaultOn := by
  intro s a b c rest hq
  have hacc := exec_reset_of_quiet hq
  refine ⟨fun he => ?_, fun he => ?_, fun he => ?_, fun he => ?_⟩
  · have h₁ := runs_one (step_reset_save_fail (s := s.goto (.reset .save)) rfl he)
    exact ⟨_, _, _, hacc, h₁, rfl, rfl, runs_one (step_reset_restoreFailed_ret rfl rfl rfl), deliver_quiet _ _, rfl,
      rfl, by simp⟩
  all_goals have h₁ := runs_one (step_reset_save_ret (s := s.goto (.reset .save)) rfl he)
  · have h₂ := runs_add h₁ (runs_one (step_reset_transmit_fail rfl rfl))
    exact ⟨_, _, _, hacc, h₂, rfl, rfl, runs_one (step_reset_restoreFailed_ret rfl rfl rfl), deliver_quiet _ _, rfl,
      rfl, by simp⟩
  all_goals have h₂ := runs_add h₁ (runs_one (step_reset_transmit_ret rfl rfl))
  · have h₃ := runs_add h₂ (runs_one (step_reset_receive_fail rfl rfl))
    exact ⟨_, _, _, hacc, h₃, rfl, rfl, runs_one (step_reset_restoreFailed_ret rfl rfl rfl), deliver_quiet _ _, rfl,
      rfl, by simp⟩
  · have h₃ := runs_add h₂ (runs_one (step_reset_receive_ret rfl rfl))
    exact ⟨_, _, _, hacc, h₃, rfl, rfl, runs_one (step_reset_restore_fail rfl rfl rfl), deliver_quiet _ _,
      Nat.succ_pos _, rfl, by simp⟩

/-- Settles O41: the frame is built as in O37, and the step whose call fails is the last. -/
theorem writePassesATransportFaultOn : Obligations.WritePassesATransportFaultOn := by
  intro s d hq hd
  have h₁ := runs_write_transmit hq hd
  refine ⟨fun rest he => ⟨_, exec_write_of_quiet hq d, ?_⟩, fun a rest he => ⟨_, exec_write_of_quiet hq d, ?_⟩⟩
  · have h₂ := runs_add h₁ (runs_one (step_write_transmit_fail rfl rfl he))
    simp only [building, State.goto, List.take_length] at h₂
    rw [← deliver_of_quiet hq]
    exact h₂
  · have h₂ := runs_add h₁ (runs_one (step_write_transmit_ret rfl rfl he))
    have h₃ := runs_add h₂ (runs_one (step_write_receive_fail rfl rfl rfl))
    simp only [building, State.goto, List.take_length, frame_length, List.append_assoc, List.cons_append,
      List.nil_append] at h₃
    rw [← deliver_of_quiet hq]
    exact h₃

/-- Settles O48: the slots before have been taken (`runs_to_slot`), and the step whose call fails is the last. -/
theorem readPassesATransportFaultOn : Obligations.ReadPassesATransportFaultOn := by
  intro s n es hq hlen hes
  have hc := hq.callResult
  refine ⟨fun rest he => ?_, fun a rest he => ?_⟩
  all_goals
    obtain ⟨k, i, u, hu, -, tx, rx, rfl⟩ := runs_to_slot hq hlen hes he
    have h₁ := runs_add hu (runs_one (step_read_call rfl (by exact hc)))
    rw [← deliver_of_quiet hq]
  · have h₂ := runs_add h₁ (runs_one (step_read_transmit_fail rfl rfl rfl))
    exact ⟨_, _, exec_read_of_quiet hq n, h₂⟩
  · have h₂ := runs_add h₁ (runs_one (step_read_transmit_ret rfl rfl rfl))
    have h₃ := runs_add h₂ (runs_one (step_read_receive_fail rfl rfl))
    rw [List.append_assoc] at h₃
    exact ⟨_, _, exec_read_of_quiet hq n, h₃⟩

end Sys2Proof.Machine
end

section
/-! PROOFS. The results a step can deliver, each by its operation, and what an error carries (60 R150 to R156,
43 R144). -/

namespace Sys2Proof.Machine

/-- The operation that delivers an error kind (60 R150). -/
def ErrorKind.op : ErrorKind → Op
  | .noPresence => .reset
  | .symbolError => .read
  | .collision => .write

/-- In `s` the result is one of the operation in flight, and the payload of an error is TXBUF and RXBUF (60 R150, R152);
TransportFault is none of them, and every operation can end with it (60 R157). -/
def Accounted (s : State) : Result → Prop
  | .ok => s.phase.op = some .reset ∨ s.phase.op = some .write
  | .okBytes _ => s.phase.op = some .read
  | .err kind pl => s.phase.op = some kind.op ∧ s.txBuf = some pl.expected ∧ s.rxBuf = some pl.observed
  | .transportFault => True

/-- From `s` to `t` the result `r` is delivered, and unless a call has failed its delivery is all that happens. -/
def Delivers (s t : State) (r : Result) : Prop :=
  t.results = s.results ++ [r] ∧ Accounted s r ∧ (r = .transportFault ∨ t = deliver r s)

/-- From `s` to `t` nothing is delivered, or one result. -/
def DeliversAtMostOne (s t : State) : Prop := t.results = s.results ∨ ∃ r, Delivers s t r

section Delivery
variable {s t u : State} {r : Result}

theorem deliversAtMostOne_of_accounted (h : Accounted s r) : DeliversAtMostOne s (deliver r s) :=
  .inr ⟨r, rfl, h, .inr rfl⟩

theorem deliversAtMostOne_transportFault (hu : u.results = s.results) :
    DeliversAtMostOne s (deliver .transportFault u) :=
  .inr ⟨_, congrArg (· ++ [_]) hu, trivial, .inl rfl⟩

/-- A call that fails delivers TransportFault or, in RESET, leads to the restoring SetBaud; every other delivery is by
the step of its operation that decides. -/
theorem stepped_deliversAtMostOne (h : Stepped s t) : DeliversAtMostOne s t := by
  cases h with
  | saveBaud => exact setBaud_rule (.inl (by simp)) (.inl (by simp))
  | transmitReset => exact txWrite_rule (.inl (by simp)) (.inl (by simp))
  | receiveEcho => exact rxRead_rule (fun _ _ => .inl (by simp)) (.inl (by simp))
  | restore => exact setBaud_rule (.inl (by simp)) (deliversAtMostOne_transportFault (by simp))
  | restoreFailed =>
    exact setBaud_rule (deliversAtMostOne_transportFault (by simp)) (deliversAtMostOne_transportFault (by simp))
  | sendFrame | transmitSlot => exact txWrite_rule (.inl (by simp)) (deliversAtMostOne_transportFault (by simp))
  | receiveFrame | receiveSlot =>
    exact rxRead_rule (fun _ _ => .inl (by simp)) (deliversAtMostOne_transportFault (by simp))
  | presence h => exact deliversAtMostOne_of_accounted (.inl (congrArg Phase.op h))
  | noPresence h ht hr | symbolError h ht hr => exact deliversAtMostOne_of_accounted ⟨congrArg Phase.op h, ht, hr⟩
  | endFrame h =>
    split
    · exact deliversAtMostOne_of_accounted (.inr (congrArg Phase.op h))
    · exact .inl rfl
  | compareFrame h ht hr =>
    refine deliversAtMostOne_of_accounted ?_
    split
    · exact .inr (congrArg Phase.op h)
    · exact ⟨congrArg Phase.op h, ht, hr⟩
  | nextByte h =>
    split
    · exact .inl rfl
    · exact deliversAtMostOne_of_accounted (congrArg Phase.op h)
  | _ => exact .inl rfl

/-- What is known of the result that a step has delivered. -/
theorem delivers_of_results (h : step s = .next t) (hr : t.results = s.results ++ [r]) : Delivers s t r := by
  rcases stepped_deliversAtMostOne (stepped_of_step h) with hn | ⟨r', hd⟩
  · simp [hn] at hr
  · obtain rfl : r' = r := by simpa [hr] using hd.1.symm
    exact hd

end Delivery

/-- Settles O49: a delivered result is accounted for by the operation in flight. -/
theorem eachErrorHasOneOperation : Obligations.EachErrorHasOneOperation := by
  intro s t r h hr
  obtain ⟨-, hacc, -⟩ := delivers_of_results h hr
  cases r with
  | ok | okBytes bs => simpa [Accounted] using hacc
  | transportFault => simp
  | err kind pl =>
    obtain ⟨hop, -⟩ := hacc
    cases kind <;> simp [hop, ErrorKind.op]

/-- Settles O50: an error is accounted for by the two buffers, and the step that delivers it does nothing else. -/
theorem errorsCarryTheBuffers : Obligations.ErrorsCarryTheBuffers := by
  intro s t kind pl h hr
  obtain ⟨-, ⟨-, htx, hrx⟩, hfault | rfl⟩ := delivers_of_results h hr
  · cases hfault
  · exact ⟨htx, hrx, rfl, rfl, deliver_quiet _ s⟩

end Sys2Proof.Machine
end
